-- ==== Sys2Proof/Word.lean ====
section
/-! DEFINITION. The word, byte, lane and number types of the Ostrel 4620 (spec/00_scope.md, Conventions and Signals). -/

namespace Sys2Proof

/-- A word of the ports and of the image memory: 32 bits, bit 31 most significant. -/
abbrev Word := BitVec 32

/-- A byte of the management link, or one byte lane of a word. -/
abbrev Byte := BitVec 8

/-- A set of byte lanes: bit i is lane i, and lane 0 holds bits 7 to 0 of the word. -/
abbrev Lanes := BitVec 4

/-- A word address as the port signals carry it: 24 bits.  The byte address is four times it. -/
abbrev WordAddr := BitVec 24

/-- A group slot, G0 to G31. -/
abbrev GroupNo := Fin 32

/-- An epoch source, ES0 to ES3. -/
abbrev SourceNo := Fin 4

/-- A synchronisation input, SYNC0 to SYNC3. -/
abbrev SyncLine := Fin 4

end Sys2Proof
end

