-- ==== Sys2Proof/Config.lean ====
section
/-! DEFINITION. The sizes and identity numbers the spec fixes for the part.  The spec leaves no value of the part open,
so there is no free value (no opaque constant) here. -/

namespace Sys2Proof.Config

/-- Stage entries in the pool (R34). -/
def stageEntries : Nat := 4096

/-- Safe entries in the safe store (R132). -/
def safeEntries : Nat := 1024

/-- Words of the snapshot store (R140). -/
def snapshotWords : Nat := 2048

/-- The most words that enabled input groups may have together (R140, R141). -/
def inputWords : Nat := 1024

/-- Records the event queue can hold (R164, R166). -/
def eventSlots : Nat := 64

/-- Bytes of the address space: 64 MB (R3, R50). -/
def addressBytes : Nat := 67108864

/-- Words of the address space (R50). -/
def addressWords : Nat := 16777216

/-- The most words of one port request (R49), and of one capture burst (R114). -/
def burstWords : Nat := 16

/-- The streak at which the arbiter turns to the host path (R118). -/
def streakLimit : Nat := 8

/-- The most loads one LOAD_SAFE frame can carry (R194). -/
def maxLoads : Nat := 49

/-- The most payload bytes of a frame that carries a check byte (R176, R201). -/
def maxPayload : Nat := 250

/-- The most records one READ_EVENTS returns (R168, R197). -/
def maxRecords : Nat := 25

/-- Vendor code reported by IDENTIFY (R185). -/
def vendorCode : BitVec 16 := 0x00CD

/-- Part number reported by IDENTIFY (R185): 4620. -/
def partNumber : BitVec 16 := 0x120C

/-- Revision reported by IDENTIFY (R185). -/
def revision : Byte := 1

end Sys2Proof.Config
end

