-- ==== Sys2Proof/Syntax.lean ====
section
/-! DEFINITION. The commands of the part: one constructor of Instr for each row of spec/opcode_table.json, with the
values that come from outside with it (a port request, the memory's answer, the bytes of a frame, the number of a source,
a line or a group).  A management command carries its frame's tag and its payload fields at their wire widths, so that
every field value the frame can hold, the refused ones too, is a term. -/

namespace Sys2Proof

/-- The two answers of either port (R49, R51). -/
inductive PortStatus where
  | okay
  | fault
  deriving DecidableEq, Repr

/-- The direction of a port request (R49). -/
inductive Dir where
  | read
  | write
  deriving DecidableEq, Repr

/-- One word of a port request: its lane enables and, for a write, its data word (R49). -/
structure PortWord where
  lanes : Lanes
  data : Word
  deriving DecidableEq, Repr

/-- A request of the host port or of the memory port (R49, R51).  The length is the number of words; the words lie at
consecutive ascending word addresses.  A read carries no write data: its words hold data 0. -/
structure PortRequest where
  dir : Dir
  addr : WordAddr
  words : List PortWord
  deriving DecidableEq, Repr

/-- A request of the host with its gaps: the word positions, from 0, before which the host path lets the claims of other blocks in;
the number of words stands for the place after the last word.  R55 lets such claims come between any two words, and the
outside chooses where (log 8).  At those of its gaps that are joined, the memory request with which it goes on arrives at the port
together with the one that a command taken there brings (R118); the outside chooses this too (log 27). -/
structure HostRequest extends PortRequest where
  gaps : List Nat
  joined : List Nat
  deriving DecidableEq, Repr

/-- The response statuses of the management link (R182, codes in R202). -/
inductive Status where
  | ok
  | pending
  | notReady
  | powered
  | truncated
  | badCheck
  | badCommand
  | badLength
  | badArgument
  | wrongState
  | noSpace
  deriving DecidableEq, Repr

/-- The command names of the management link (R201). -/
inductive Command where
  | nop
  | identify
  | readDevice
  | resetDevice
  | defineSource
  | startSource
  | stopSource
  | skipEdge
  | insertEdge
  | readSource
  | defineGroup
  | deleteGroup
  | enableGroup
  | disableGroup
  | resumeGroup
  | loadSafe
  | readGroup
  | setEventMask
  | readEvents
  deriving DecidableEq, Repr

/-- The fourteen payload bytes of DEFINE_SOURCE, field by field (R187). -/
structure SourceFields where
  source : Byte
  kind : Byte
  unit : Byte
  period : BitVec 16
  margin : BitVec 16
  guard : BitVec 16
  holdoverLimit : Byte
  syncLine : Byte
  parent : Byte
  divisor : BitVec 16
  deriving DecidableEq, Repr

/-- The twenty-two payload bytes of DEFINE_GROUP, field by field (R191). -/
structure GroupFields where
  group : Byte
  kind : Byte
  base : BitVec 32
  length : BitVec 16
  source : Byte
  sealOffset : Byte
  seqPresent : Byte
  seqAddr : BitVec 32
  bbm : Byte
  policy : Byte
  staleLimit : Byte
  latch : Byte
  stampPresent : Byte
  stampOffset : Byte
  holdLimit : Byte
  deriving DecidableEq, Repr

/-- One load of a LOAD_SAFE, and one safe entry: a word offset and a full data word (R132, R194). -/
structure SafeEntry where
  offset : Byte
  data : Word
  deriving DecidableEq, Repr

/-- The commands of the part, one constructor for each row of spec/opcode_table.json. -/
inductive Instr where
  | powerOn
  | resetAssert
  | hostRequest (request : HostRequest)
  | runResponse (status : PortStatus) (data : List Word)
  | layeredReadResponse (status : PortStatus) (data : Word)
  | timerExpiry (source : SourceNo)
  | syncRisingEdge (line : SyncLine)
  | watchExpiry (source : SourceNo)
  | standInExpiry (source : SourceNo)
  | absorbWindowClose (source : SourceNo)
  | edgeDelivery (source : SourceNo) (group : GroupNo)
  | parentEdgeDelivery (parent child : SourceNo)
  | openingWriteResponse (status : PortStatus)
  | dataWriteResponse (status : PortStatus)
  | releaseReadResponse (status : PortStatus) (data : Word)
  | releaseWriteResponse (status : PortStatus)
  | marginExpiry (group : GroupNo)
  | closingWriteResponse (status : PortStatus)
  | captureBurstResponse (status : PortStatus) (data : List Word)
  | transferStart
  | frameTruncated (bytes : List Byte)
  | frameRefused (bytes : List Byte)
  | frameDiscarded (bytes : List Byte)
  | nop (tag : Byte)
  | identify (tag : Byte)
  | readDevice (tag : Byte)
  | resetDevice (tag : Byte)
  | tornWriteResponse (status : PortStatus)
  | defineSource (tag : Byte) (fields : SourceFields)
  | startSource (tag : Byte) (source : Byte)
  | stopSource (tag : Byte) (source : Byte)
  | skipEdge (tag : Byte) (source cancel : Byte)
  | insertEdge (tag : Byte) (source : Byte)
  | readSource (tag : Byte) (source : Byte)
  | defineGroup (tag : Byte) (fields : GroupFields)
  | deleteGroup (tag : Byte) (group : Byte)
  | enableGroup (tag : Byte) (group : Byte)
  | disableGroup (tag : Byte) (group : Byte)
  | resumeGroup (tag : Byte) (group : Byte)
  | loadSafe (tag : Byte) (group first : Byte) (loads : List SafeEntry)
  | readGroup (tag : Byte) (group : Byte)
  | setEventMask (tag : Byte) (mask : BitVec 16)
  | readEvents (tag : Byte) (count : Byte)
  deriving DecidableEq, Repr

/-- What the link makes of the bytes of one transfer (R176 to R180): no frame has completed yet, a complete frame is
refused with a status and the tag it echoes, or a complete frame is accepted as a command. -/
inductive FrameVerdict where
  | incomplete
  | refused (status : Status) (tag : Byte)
  | accepted (command : Instr)
  deriving DecidableEq, Repr

end Sys2Proof
end

