-- ==== Sys2Proof/Machine/State.lean ====
section
/-! DEFINITION. The state of the part, all of it plain data, and its value after power-on (R1, R31, R46, R70, R97, R122,
R137, R159, R172, R182). -/

namespace Sys2Proof.Machine

/-- Kinds of group (R2). -/
inductive GroupKind where
  | output
  | input
  deriving DecidableEq, Repr

/-- What a seal does while an armed image is present (R2, R16). -/
inductive SealPolicy where
  | coalesce
  | reject
  deriving DecidableEq, Repr

/-- The states of a defined group (sections 1.2 and 7.1).  An UNDEFINED slot holds no group at all. -/
inductive GroupState where
  | disabled
  | live
  | safe
  | draining
  deriving DecidableEq, Repr

/-- The group record (R2), in the widths of DEFINE_GROUP (R191).  Fields of the other kind are not stored: they hold 0,
absent or off. -/
structure GroupRecord where
  kind : GroupKind
  base : BitVec 32
  length : Nat
  source : SourceNo
  sealOffset : Byte
  seqAddr : Option (BitVec 32)
  bbm : Bool
  policy : SealPolicy
  staleLimit : Byte
  latch : Bool
  stampOffset : Option Byte
  holdLimit : Byte
  deriving DecidableEq, Repr

/-- A held stage entry: word offset, data word and lane mask (R8, R35). -/
structure Entry where
  offset : Byte
  data : Word
  lanes : Lanes
  deriving DecidableEq, Repr

/-- An image: its entries in list order (R8). -/
abbrev Image := List Entry

/-- The filling image and its damaged flag (R7). -/
structure Filling where
  entries : Image
  damaged : Bool
  deriving DecidableEq, Repr

/-- The committing image: the stage entries of a commit job, or a reference to the group's safe image (R7). -/
inductive Committing where
  | commit (image : Image)
  | safe
  deriving DecidableEq, Repr

/-- A bank that holds one completed capture and the epoch number of its edge (R139). -/
structure Bank where
  epoch : BitVec 32
  words : List Word
  deriving DecidableEq, Repr

/-- The back bank (R139).  A FILLING bank holds the words its capture has placed so far. -/
inductive BackBank where
  | idle
  | filling (words : List Word)
  | pending (bank : Bank)
  deriving DecidableEq, Repr

/-- A defined group: its record, its state, and its running values: of an output group the three image slots (R7), the safe
image (R133), the pending safe job (R126), the stale count (R123), the seq count (R100) and the four counters (R30); of an
input group the snapshot state (R139). -/
structure Group where
  record : GroupRecord
  state : GroupState
  filling : Option Filling
  armed : Option Image
  committing : Option Committing
  safeImage : Option (List SafeEntry)
  pendingSafe : Bool
  staleCount : Byte
  seqCount : BitVec 30
  coalesced : BitVec 16
  rejected : BitVec 16
  damaged : BitVec 16
  behind : BitVec 16
  front : Option Bank
  back : BackBank
  captureInFlight : Bool
  held : Bool
  holdCount : Byte
  deriving DecidableEq, Repr

/-- The four time units of a source record (R71). -/
inductive TimeUnit where
  | us1
  | us10
  | us100
  | ms1
  deriving DecidableEq, Repr

/-- The kind of a source with the fields of that kind (R71). -/
inductive SourceKind where
  | timer (period : BitVec 16)
  | external (period guard : BitVec 16) (holdoverLimit : Byte) (syncLine : SyncLine)
  | divided (parent : SourceNo) (divisor : Nat)
  deriving DecidableEq, Repr

/-- The source record (R71). -/
structure SourceRecord where
  unit : TimeUnit
  margin : BitVec 16
  kind : SourceKind
  deriving DecidableEq, Repr

/-- The lock sub-state of an EXTERNAL source (section 4.5). -/
inductive LockState where
  | await
  | locked
  | holdover
  | lost
  deriving DecidableEq, Repr

/-- An epoch source slot: its record (absent while UNDEFINED), whether it is RUNNING, its running values (R73, R97), its
timers, each absent while it does not run and otherwise the duration in µs it was last started with (R81, R84, R86, R87),
and the level of its EPOCH line (R94). -/
structure Source where
  record : Option SourceRecord
  running : Bool
  epoch : BitVec 32
  skip : Bool
  lock : LockState
  holdover : Byte
  phase : Nat
  countdown : Option Nat
  watch : Option Nat
  standIn : Option Nat
  absorbWindow : Option Nat
  line : Bool
  deriving DecidableEq, Repr

/-- One group an emitted edge has been offered to and not yet delivered to; void once the group has become DISABLED since
the emission (R78, R79). -/
structure GroupOffer where
  group : GroupNo
  void : Bool
  deriving DecidableEq, Repr

/-- One DIVIDED child an emitted edge has been offered to; void once the child has been stopped or redefined since the
emission (R78, R80). -/
structure ChildOffer where
  child : SourceNo
  void : Bool
  deriving DecidableEq, Repr

/-- An emitted edge with the deliveries of it that are still to be taken (R78): its source, the epoch number it carries, the
groups in ascending number and the children. -/
structure Edge where
  source : SourceNo
  epoch : BitVec 32
  groups : List GroupOffer
  children : List ChildOffer
  deriving DecidableEq, Repr

/-- What a job does (R99). -/
inductive JobKind where
  | commit
  | safe
  | capture
  deriving DecidableEq, Repr

/-- Which part of its work a job is in (R99). -/
inductive JobPhase where
  | plain
  | release
  | engage
  | capture
  deriving DecidableEq, Repr

/-- The first faulting position of a job (R99). -/
inductive FaultPosition where
  | offset (o : Byte)
  | sequenceWord
  deriving DecidableEq, Repr

/-- A job with the fields of R99.  releaseData is the word of the release pair under way, read and already ANDed (R111), and
closingIssued says whether the closing sequence-word write has been issued (R121, condition 3). -/
structure Job where
  kind : JobKind
  group : GroupNo
  count : BitVec 30
  epoch : BitVec 32
  bbm : Bool
  margin : Nat
  marginExpired : Bool
  phase : JobPhase
  progress : Nat
  writingIssued : Bool
  closingIssued : Bool
  faulted : Bool
  faultPosition : Option FaultPosition
  releaseData : Option Word
  deriving DecidableEq, Repr

/-- The commit engine's three places for jobs (R101). -/
structure Engine where
  queue : List Job
  running : Option Job
  marginList : List Job
  deriving DecidableEq, Repr

/-- Why a memory request was issued (R51, section 5): the two host-path purposes, the requests of a job, and the TORN
writes of an abandonment. -/
inductive Purpose where
  | run
  | layered
  | opening
  | dataWrite
  | releaseRead
  | releaseWrite
  | closing
  | burst
  | torn
  deriving DecidableEq, Repr

/-- The memory request that has been granted the port and not yet answered (R51, R118). -/
structure PortUse where
  purpose : Purpose
  request : PortRequest
  deriving DecidableEq, Repr

/-- What the host path waits for: nothing, the response of its issued run, or the response of a layered read, with the image
lanes composed when the word was taken and the lanes memory is to supply (R55, R61). -/
inductive HostWait where
  | nothing
  | run
  | layered (image : Word) (lanes : Lanes)
  deriving DecidableEq, Repr

/-- The request the host path is taking (R55): how many of its words have been taken, the words of the open run, whether
some word was refused or some memory request faulted (R56), the read data so far, what it waits for, and the gaps that are still
before it, with those of its gaps that are joined (log 8, log 27). -/
structure ActiveRequest where
  request : PortRequest
  taken : Nat
  run : List PortWord
  faulted : Bool
  data : List Word
  wait : HostWait
  gaps : List Nat
  joined : List Nat
  deriving DecidableEq, Repr

/-- The one response of a host request (R49, R56). -/
structure HostResponse where
  status : PortStatus
  data : List Word
  deriving DecidableEq, Repr

/-- The host path (R70): the request being taken, the requests held off at the host port, oldest first (R49, R69), and the
model's record of the responses returned to the host, oldest first. -/
structure HostPath where
  active : Option ActiveRequest
  waiting : List HostRequest
  responses : List HostResponse
  deriving DecidableEq, Repr

/-- The sixteen event kinds (R163). -/
inductive EventKind where
  | imageLate
  | sealCoalesced
  | sealRejected
  | imageDamaged
  | poolExhausted
  | commitBehind
  | commitFault
  | groupStale
  | groupRecovered
  | captureBehind
  | captureFault
  | holdExpired
  | syncMissed
  | syncLost
  | syncRegained
  | groupDrained
  deriving DecidableEq, Repr

/-- An event record (R162). -/
structure EventRecord where
  kind : EventKind
  group : Option GroupNo
  source : Option SourceNo
  epoch : Option (BitVec 32)
  detail : BitVec 16
  deriving DecidableEq, Repr

/-- The event queue (R165 to R167), its kind mask, bit k for the kind of code k (R205), and the level of ALERT (R171). -/
structure EventQueue where
  records : List EventRecord
  dropCount : BitVec 16
  mask : BitVec 16
  alert : Bool
  deriving DecidableEq, Repr

/-- The receive state's condition (R174, R176): no select period is open to the link, a frame may still be received in the
current one, or its frame is complete and what follows is ignored. -/
inductive Receive where
  | closed
  | receiving
  | complete
  deriving DecidableEq, Repr

/-- A response frame without its length and check, which follow from it (R182). -/
structure Response where
  status : Status
  tag : Byte
  payload : List Byte
  deriving DecidableEq, Repr

/-- The management link (chapter 9): the receive state, the bytes received in the current transfer, the transmit copy, the
response buffer and the discarded-frame count. -/
structure Link where
  receive : Receive
  received : List Byte
  transmit : Response
  response : Response
  discarded : BitVec 16
  deriving DecidableEq, Repr

/-- A TORN sequence-word write that is due (R121). -/
structure TornWrite where
  addr : WordAddr
  count : BitVec 30
  deriving DecidableEq, Repr

/-- RESET_DEVICE under execution: the tag of its frame, whether the abandonment has taken place, and the TORN writes still
to be answered, the first of them issued (R198 to R200). -/
structure Resetting where
  tag : Byte
  abandoned : Bool
  torn : List TornWrite
  deriving DecidableEq, Repr

/-- The whole part, and the queue of the commands that wait.  resetAsserted is the RESET input (R1), port the memory port's
outstanding request (R51), streak the arbiter's count (R118). -/
structure State where
  resetAsserted : Bool
  groups : Vector (Option Group) 32
  freeStage : Nat
  freeSafe : Nat
  freeSnapshot : Nat
  sources : Vector Source 4
  edges : List Edge
  engine : Engine
  streak : Nat
  port : Option PortUse
  host : HostPath
  events : EventQueue
  link : Link
  resetting : Option Resetting
  pending : List Instr
  deriving DecidableEq, Repr

/-- Why a command stops the machine.  All are safe: each stands for something that cannot happen at the pins of the part. -/
inductive Fault where
  /-- Raised by exec on a term that stands for no event at the pins: Instr.wellFormed is false of it.  Safe. -/
  | illFormed
  /-- Raised by a response command when the memory port holds no outstanding request of that kind: the memory answers
  only what the 4620 asked (R51).  Safe. -/
  | unexpectedResponse
  /-- Raised by a response command when an OKAY answer to a read does not carry one data word for each word (R51).  Safe. -/
  | malformedResponse
  /-- Raised by FRAME_DISCARDED while no RESET_DEVICE executes: only then is a frame discarded (R181).  Safe. -/
  | frameNotDiscarded
  deriving DecidableEq, Repr

/-- Why a command has no meaning in the model. -/
inductive Refusal where
  /-- Raised by exec for a command whose meaning is not written yet.  No command of this model answers it.  Safe. -/
  | notModelled (mnemonic : String)
  deriving DecidableEq, Repr

/-- A source slot after power-on (R97). -/
def Source.undefined : Source where
  record := none
  running := false
  epoch := 0
  skip := false
  lock := .await
  holdover := 0
  phase := 0
  countdown := none
  watch := none
  standIn := none
  absorbWindow := none
  line := false

/-- The engine after power-on (R122). -/
def Engine.empty : Engine := { queue := [], running := none, marginList := [] }

/-- The host path after power-on (R70). -/
def HostPath.idle : HostPath := { active := none, waiting := [], responses := [] }

/-- The event queue after power-on: empty, every kind enabled, ALERT low (R172). -/
def EventQueue.powerOn : EventQueue := { records := [], dropCount := 0, mask := 0xFFFF, alert := false }

/-- The response POWERED, tag 0, no payload (R182). -/
def Response.powered : Response := { status := .powered, tag := 0, payload := [] }

/-- The link after power-on (R182, R184).  DESIGN CHOICE: the spec gives the transmit copy no value before the first
transfer; it holds what the first transfer will copy into it. -/
def Link.powerOn : Link where
  receive := .closed
  received := []
  transmit := Response.powered
  response := Response.powered
  discarded := 0

/-- The part after power-on, with no command waiting (R1). -/
def State.reset : State where
  resetAsserted := false
  groups := Vector.replicate 32 none
  freeStage := Config.stageEntries
  freeSafe := Config.safeEntries
  freeSnapshot := Config.snapshotWords
  sources := Vector.replicate 4 Source.undefined
  edges := []
  engine := Engine.empty
  streak := 0
  port := none
  host := HostPath.idle
  events := EventQueue.powerOn
  link := Link.powerOn
  resetting := none
  pending := []

end Sys2Proof.Machine
end

