-- ==== Sys2Proof/Decode.lean ====
section
/-! DEFINITION. The frames of the management link: the check byte, the layout of a command frame, the examination of a
received frame (R176 to R180, R201) and the frame a command travels in.  No row of spec/opcode_table.json gives bits, so
decodeTableWord spells no command. -/

namespace Sys2Proof

/-- One shift of the CRC-8 register with generator x^8 + x^2 + x + 1 (R177). -/
def crcShift (c : Byte) : Byte :=
  if c.msb then (c <<< 1) ^^^ 0x07#8 else c <<< 1

/-- The CRC-8 register after one more byte: XOR, then eight shifts (R177). -/
def crcByte (c b : Byte) : Byte :=
  crcShift (crcShift (crcShift (crcShift (crcShift (crcShift (crcShift (crcShift (c ^^^ b))))))))

/-- The check byte of a byte sequence, from a register of 0 (R177). -/
def crc8 (bytes : List Byte) : Byte :=
  bytes.foldl crcByte 0#8

/-- A two-byte field, most significant byte first (R174). -/
def be16 (hi lo : Byte) : BitVec 16 := hi ++ lo

/-- A four-byte field, most significant byte first (R174). -/
def be32 (b3 b2 b1 b0 : Byte) : BitVec 32 := b3 ++ b2 ++ b1 ++ b0

/-- The bytes of a two-byte field, most significant first (R174). -/
def bytes16 (x : BitVec 16) : List Byte :=
  [x.extractLsb' 8 8, x.extractLsb' 0 8]

/-- The bytes of a four-byte field, most significant first (R174). -/
def bytes32 (x : BitVec 32) : List Byte :=
  [x.extractLsb' 24 8, x.extractLsb' 16 8, x.extractLsb' 8 8, x.extractLsb' 0 8]

/-- The code of each command (R201). -/
def commandCode : Command → Byte
  | .nop => 0x00
  | .identify => 0x01
  | .readDevice => 0x02
  | .resetDevice => 0x03
  | .defineSource => 0x10
  | .startSource => 0x11
  | .stopSource => 0x12
  | .skipEdge => 0x13
  | .insertEdge => 0x14
  | .readSource => 0x15
  | .defineGroup => 0x20
  | .deleteGroup => 0x21
  | .enableGroup => 0x22
  | .disableGroup => 0x23
  | .resumeGroup => 0x24
  | .loadSafe => 0x25
  | .readGroup => 0x26
  | .setEventMask => 0x30
  | .readEvents => 0x31

/-- Every command the link knows, in the order of the code table (R201). -/
def allCommands : List Command :=
  [.nop, .identify, .readDevice, .resetDevice, .defineSource, .startSource, .stopSource, .skipEdge, .insertEdge,
    .readSource, .defineGroup, .deleteGroup, .enableGroup, .disableGroup, .resumeGroup, .loadSafe, .readGroup,
    .setEventMask, .readEvents]

/-- The command a code names, if any: a code outside the table of R201 names none. -/
def commandOfCode (code : Byte) : Option Command :=
  allCommands.find? (fun c => commandCode c == code)

/-- The loads of a LOAD_SAFE payload, five bytes each: an offset, then a data word (R194). -/
def decodeLoads : List Byte → Option (List SafeEntry)
  | [] => some []
  | o :: b3 :: b2 :: b1 :: b0 :: rest => (decodeLoads rest).map (fun l => ⟨o, be32 b3 b2 b1 b0⟩ :: l)
  | _ => none

/-- The command that a command name, a tag and a payload make; none where the command does not accept a payload of that
length (section 9.3's table and R185 to R198). -/
def decodePayload (tag : Byte) : Command → List Byte → Option Instr
  | .nop, [] => some (.nop tag)
  | .identify, [] => some (.identify tag)
  | .readDevice, [] => some (.readDevice tag)
  | .resetDevice, [] => some (.resetDevice tag)
  | .defineSource, [n, k, u, p1, p0, m1, m0, g1, g0, h, l, q, d1, d0] =>
      some (.defineSource tag ⟨n, k, u, be16 p1 p0, be16 m1 m0, be16 g1 g0, h, l, q, be16 d1 d0⟩)
  | .startSource, [n] => some (.startSource tag n)
  | .stopSource, [n] => some (.stopSource tag n)
  | .skipEdge, [n, c] => some (.skipEdge tag n c)
  | .insertEdge, [n] => some (.insertEdge tag n)
  | .readSource, [n] => some (.readSource tag n)
  | .defineGroup, [g, k, b3, b2, b1, b0, l1, l0, src, so, sp, q3, q2, q1, q0, bbm, pol, sl, la, stp, sto, hl] =>
      some (.defineGroup tag
        ⟨g, k, be32 b3 b2 b1 b0, be16 l1 l0, src, so, sp, be32 q3 q2 q1 q0, bbm, pol, sl, la, stp, sto, hl⟩)
  | .deleteGroup, [g] => some (.deleteGroup tag g)
  | .enableGroup, [g] => some (.enableGroup tag g)
  | .disableGroup, [g] => some (.disableGroup tag g)
  | .resumeGroup, [g] => some (.resumeGroup tag g)
  | .loadSafe, g :: f :: rest => (decodeLoads rest).map (fun l => .loadSafe tag g f l)
  | .readGroup, [g] => some (.readGroup tag g)
  | .setEventMask, [m1, m0] => some (.setEventMask tag (be16 m1 m0))
  | .readEvents, [n] => some (.readEvents tag n)
  | _, _ => none

/-- A complete frame with length byte 250 or less, in the order of R179: the check byte, the code, the length. -/
def examineWhole (code tag length : Byte) (payload : List Byte) (check : Byte) : FrameVerdict :=
  if check = crc8 (code :: tag :: length :: payload) then
    match commandOfCode code with
    | none => .refused .badCommand tag
    | some c =>
      match decodePayload tag c payload with
      | none => .refused .badLength tag
      | some i => .accepted i
  else .refused .badCheck tag

/-- What the bytes of one transfer amount to (R176, R179).  A length byte above 250 completes the frame at once; otherwise
the frame is complete with its check byte, and every byte after it is ignored. -/
def examineFrame : List Byte → FrameVerdict
  | code :: tag :: length :: rest =>
    if Config.maxPayload < length.toNat then .refused .badLength tag
    else
      match rest.drop length.toNat with
      | check :: _ => examineWhole code tag length (rest.take length.toNat) check
      | [] => .incomplete
  | _ => .incomplete

/-- The eight bits of a byte in the order they cross the link, most significant first (R174). -/
def byteBits (b : Byte) : List Bool := (List.range 8).map b.getMsbD

/-- The byte of eight bits, the first the most significant (R174). -/
def byteOfBits (b7 b6 b5 b4 b3 b2 b1 b0 : Bool) : Byte :=
  BitVec.ofBool b7 ++ BitVec.ofBool b6 ++ BitVec.ofBool b5 ++ BitVec.ofBool b4 ++ BitVec.ofBool b3 ++ BitVec.ofBool b2
    ++ BitVec.ofBool b1 ++ BitVec.ofBool b0

/-- The bytes of the bits sampled on MDI in one select period: eight bits each; the bits of a byte that is not complete are
discarded (R174). -/
def wireBytes : List Bool → List Byte
  | b7 :: b6 :: b5 :: b4 :: b3 :: b2 :: b1 :: b0 :: rest => byteOfBits b7 b6 b5 b4 b3 b2 b1 b0 :: wireBytes rest
  | _ => []

/-- The bytes of the frame at the head of a transfer: what follows a complete frame is ignored (R176). -/
def frameBytes : List Byte → List Byte
  | code :: tag :: length :: rest =>
    if Config.maxPayload < length.toNat then [code, tag, length] else code :: tag :: length :: rest.take (length.toNat + 1)
  | bytes => bytes

/-- The command that the bits sampled in one select period amount to, outside RESET_DEVICE: none when no byte is complete (R176),
FRAME_TRUNCATED for a frame cut short (R178), FRAME_REFUSED for one that R179 refuses, and otherwise the command of the frame. -/
def transferCommand (bits : List Bool) : Option Instr :=
  match wireBytes bits with
  | [] => none
  | b :: bs =>
    match examineFrame (b :: bs) with
    | .incomplete => some (.frameTruncated (b :: bs))
    | .refused _ _ => some (.frameRefused (frameBytes (b :: bs)))
    | .accepted i => some i

/-- The command name, tag and payload bytes of a management command; none for a command that is no frame. -/
def framePayload : Instr → Option (Command × Byte × List Byte)
  | .nop tag => some (.nop, tag, [])
  | .identify tag => some (.identify, tag, [])
  | .readDevice tag => some (.readDevice, tag, [])
  | .resetDevice tag => some (.resetDevice, tag, [])
  | .defineSource tag f => some (.defineSource, tag,
      [f.source, f.kind, f.unit] ++ bytes16 f.period ++ bytes16 f.margin ++ bytes16 f.guard
        ++ [f.holdoverLimit, f.syncLine, f.parent] ++ bytes16 f.divisor)
  | .startSource tag n => some (.startSource, tag, [n])
  | .stopSource tag n => some (.stopSource, tag, [n])
  | .skipEdge tag n c => some (.skipEdge, tag, [n, c])
  | .insertEdge tag n => some (.insertEdge, tag, [n])
  | .readSource tag n => some (.readSource, tag, [n])
  | .defineGroup tag f => some (.defineGroup, tag,
      [f.group, f.kind] ++ bytes32 f.base ++ bytes16 f.length ++ [f.source, f.sealOffset, f.seqPresent]
        ++ bytes32 f.seqAddr ++ [f.bbm, f.policy, f.staleLimit, f.latch, f.stampPresent, f.stampOffset, f.holdLimit])
  | .deleteGroup tag g => some (.deleteGroup, tag, [g])
  | .enableGroup tag g => some (.enableGroup, tag, [g])
  | .disableGroup tag g => some (.disableGroup, tag, [g])
  | .resumeGroup tag g => some (.resumeGroup, tag, [g])
  | .loadSafe tag g f loads => some (.loadSafe, tag,
      g :: f :: loads.flatMap (fun l => l.offset :: bytes32 l.data))
  | .readGroup tag g => some (.readGroup, tag, [g])
  | .setEventMask tag m => some (.setEventMask, tag, bytes16 m)
  | .readEvents tag n => some (.readEvents, tag, [n])
  | .powerOn | .resetAssert | .hostRequest _ | .runResponse _ _ | .layeredReadResponse _ _ | .timerExpiry _
  | .syncRisingEdge _ | .watchExpiry _ | .standInExpiry _ | .absorbWindowClose _ | .edgeDelivery _ _
  | .parentEdgeDelivery _ _ | .openingWriteResponse _ | .dataWriteResponse _ | .releaseReadResponse _ _
  | .releaseWriteResponse _ | .marginExpiry _ | .closingWriteResponse _ | .captureBurstResponse _ _ | .transferStart
  | .frameTruncated _ | .frameRefused _ | .frameDiscarded _ | .tornWriteResponse _ => none

/-- A frame: head byte, tag, length, payload, and the CRC-8 of them all (R201, R202). -/
def sealFrame (head tag : Byte) (payload : List Byte) : List Byte :=
  let bytes := head :: tag :: BitVec.ofNat 8 payload.length :: payload
  bytes ++ [crc8 bytes]

/-- The command frame a management command travels in (R201); no bytes for a command that is no frame. -/
def encodeFrame (i : Instr) : List Byte :=
  match framePayload i with
  | some (c, tag, payload) => sealFrame (commandCode c) tag payload
  | none => []

/-- No row of spec/opcode_table.json gives bits, so no word spells a command. -/
def decodeTableWord (_nbits _w : Nat) : Option Instr := none

end Sys2Proof
end

