-- ==== Sys2Proof/WellFormed.lean ====
section
/-! DEFINITION. Which terms of Instr stand for something that can happen at the pins. -/

namespace Sys2Proof

/-- A request as R49 states its fields: 1 to 16 words, and no write data on a read. -/
def PortRequest.wellFormed (r : PortRequest) : Bool :=
  decide (1 ≤ r.words.length) && decide (r.words.length ≤ Config.burstWords)
    && (decide (r.dir = .write) || r.words.all (fun w => w.data == 0#32))

/-- A frame begun and not complete, as a truncated frame is (R176, R178). -/
def truncatedBytes (bytes : List Byte) : Bool :=
  !bytes.isEmpty && decide (examineFrame bytes = .incomplete)

/-- A complete frame that one of the first four rows of R179 answers. -/
def refusedBytes (bytes : List Byte) : Bool :=
  match examineFrame bytes with
  | .refused _ _ => true
  | .incomplete => false
  | .accepted _ => false

/-- A begun frame other than a NOP, complete or cut short, as R181 discards. -/
def discardableBytes (bytes : List Byte) : Bool :=
  !bytes.isEmpty &&
    match examineFrame bytes with
    | .accepted (.nop _) => false
    | _ => true

/-- The command can stand for an event at the pins. -/
def Instr.wellFormed : Instr → Bool
  | .hostRequest r => r.wellFormed
  | .frameTruncated b => truncatedBytes b
  | .frameRefused b => refusedBytes b
  | .frameDiscarded b => discardableBytes b
  | .loadSafe _ _ _ loads => decide (loads.length ≤ Config.maxLoads)
  | .powerOn | .resetAssert | .runResponse _ _ | .layeredReadResponse _ _ | .timerExpiry _
  | .syncRisingEdge _ | .watchExpiry _ | .standInExpiry _ | .absorbWindowClose _ | .edgeDelivery _ _
  | .parentEdgeDelivery _ _ | .openingWriteResponse _ | .dataWriteResponse _ | .releaseReadResponse _ _
  | .releaseWriteResponse _ | .marginExpiry _ | .closingWriteResponse _ | .captureBurstResponse _ _ | .transferStart
  | .nop _ | .identify _ | .readDevice _ | .resetDevice _ | .tornWriteResponse _ | .defineSource _ _
  | .startSource _ _ | .stopSource _ _ | .skipEdge _ _ _ | .insertEdge _ _ | .readSource _ _ | .defineGroup _ _
  | .deleteGroup _ _ | .enableGroup _ _ | .disableGroup _ _ | .resumeGroup _ _ | .readGroup _ _
  | .setEventMask _ _ | .readEvents _ _ => true

end Sys2Proof
end

