-- ==== Sys2Proof/Machine/Operands.lean ====
section
/-! DEFINITION. The operand forms: byte lanes of a word, entries of an image, word addresses of a group, durations, and the
two words and the record that cross a pin (sequence word R203, stamp word R204, event record R205). -/

namespace Sys2Proof.Machine

/-- The bits of a word that a lane set covers: lane i is bits 8i+7 to 8i. -/
def laneMask (l : Lanes) : Word :=
  (bif l.getLsbD 3 then 0xFF#8 else 0#8) ++ (bif l.getLsbD 2 then 0xFF#8 else 0#8)
    ++ (bif l.getLsbD 1 then 0xFF#8 else 0#8) ++ (bif l.getLsbD 0 then 0xFF#8 else 0#8)

/-- The word with each lane outside the set read as 0 (R60, R64, R66). -/
def keepLanes (w : Word) (l : Lanes) : Word := w &&& laneMask l

/-- The enabled lanes take the new word's bytes, the others keep the old word's (R11). -/
def mergeLanes (old new : Word) (l : Lanes) : Word := (old &&& ~~~(laneMask l)) ||| (new &&& laneMask l)

/-- All four lanes. -/
def allLanes : Lanes := 0xF

/-- One word of a read request: its lane enables, and no data. -/
def readWord (l : Lanes) : PortWord := { lanes := l, data := 0 }

/-- The image's entry for an offset, if it has one (R8). -/
def Image.entryAt (img : Image) (off : Byte) : Option Entry := img.find? (fun e => e.offset == off)

/-- The image holds an entry with the offset. -/
def Image.holds (img : Image) (off : Byte) : Bool := img.any (fun e => e.offset == off)

/-- A write merges into the entry of its offset, which keeps its place and gains the write's lanes (R11). -/
def Image.mergeAt (img : Image) (off : Byte) (data : Word) (l : Lanes) : Image :=
  img.map (fun e => if e.offset = off then { e with data := mergeLanes e.data data l, lanes := e.lanes ||| l } else e)

/-- One filling entry goes into the armed image: merged where armed holds its offset, else at the end of the list (R17). -/
def Image.absorb (armed : Image) (e : Entry) : Image :=
  if Image.holds armed e.offset then Image.mergeAt armed e.offset e.data e.lanes else armed ++ [e]

/-- The armed image after a seal under COALESCE, in filling's list order (R17). -/
def Image.coalesce (armed filling : Image) : Image := filling.foldl Image.absorb armed

/-- A safe entry as an entry of an image: the full word, all four lanes (R132). -/
def safeAsEntry (e : SafeEntry) : Entry := { offset := e.offset, data := e.data, lanes := allLanes }

/-- One load into a safe image: a held offset's data word is replaced in place, a new offset goes to the end (R133, R135). -/
def loadEntry (img : List SafeEntry) (e : SafeEntry) : List SafeEntry :=
  if img.any (fun x => x.offset == e.offset) then
    img.map (fun x => if x.offset = e.offset then { x with data := e.data } else x)
  else img ++ [e]

/-- The loads of one LOAD_SAFE applied in order (R135). -/
def applyLoads (img : List SafeEntry) (loads : List SafeEntry) : List SafeEntry := loads.foldl loadEntry img

/-- The word address of a group's first word. -/
def GroupRecord.baseWord (r : GroupRecord) : Nat := r.base.toNat / 4

/-- The word address of a group's word at an offset: base + 4 × offset as a word address. -/
def GroupRecord.wordAt (r : GroupRecord) (off : Nat) : WordAddr := BitVec.ofNat 24 (r.baseWord + off)

/-- The word address lies in the group's range (R2). -/
def GroupRecord.covers (r : GroupRecord) (a : Nat) : Bool :=
  decide (r.baseWord ≤ a) && decide (a < r.baseWord + r.length)

/-- The word address of the group's sequence word, when it has one. -/
def GroupRecord.seqWord (r : GroupRecord) : Option Nat := r.seqAddr.map (fun a => a.toNat / 4)

/-- The word address lies in the group's range or is its sequence word. -/
def GroupRecord.touches (r : GroupRecord) (a : Nat) : Bool := r.covers a || decide (r.seqWord = some a)

/-- Enabled: LIVE, SAFE or DRAINING (section 1.2). -/
def Group.enabled (x : Group) : Bool := decide (x.state ≠ .disabled)

/-- A job of the output group is in flight exactly while its committing slot is present (R7). -/
def Group.jobInFlight (x : Group) : Bool := x.committing.isSome

/-- The number of stage entries a committing slot holds: none when it refers to the safe image (R7, R34). -/
def Committing.stageEntries : Committing → Nat
  | .commit img => img.length
  | .safe => 0

/-- The stage entries the group's three images hold (R34). -/
def Group.stageEntries (x : Group) : Nat :=
  (x.filling.elim 0 (fun f => f.entries.length)) + (x.armed.elim 0 List.length)
    + (x.committing.elim 0 Committing.stageEntries)

/-- The safe entries the group's safe image holds (R132). -/
def Group.safeEntries (x : Group) : Nat := x.safeImage.elim 0 List.length

/-- The entries of the image the group's job writes: the committing image, or the safe image as full words (R99, R107). -/
def Group.jobImage (x : Group) : Image :=
  match x.committing with
  | some (.commit img) => img
  | some .safe => (x.safeImage.getD []).map safeAsEntry
  | none => []

/-- A group record as DEFINE_GROUP leaves it: DISABLED, every count 0, no image, no bank, no safe image (R4). -/
def Group.defined (r : GroupRecord) : Group where
  record := r
  state := .disabled
  filling := none
  armed := none
  committing := none
  safeImage := none
  pendingSafe := false
  staleCount := 0
  seqCount := 0
  coalesced := 0
  rejected := 0
  damaged := 0
  behind := 0
  front := none
  back := .idle
  captureInFlight := false
  held := false
  holdCount := 0

/-- The unit of a source in µs (R71). -/
def TimeUnit.micros : TimeUnit → Nat
  | .us1 => 1
  | .us10 => 10
  | .us100 => 100
  | .ms1 => 1000

/-- A count of the record as a duration in µs: the count multiplied by the unit (R71). -/
def SourceRecord.duration (r : SourceRecord) (count : BitVec 16) : Nat := count.toNat * r.unit.micros

/-- A 16-bit saturating counter raised by 1 (R30, R167, R184). -/
def satSucc16 (c : BitVec 16) : BitVec 16 := if c = 0xFFFF then c else c + 1

/-- An 8-bit saturating counter raised by 1 (R142). -/
def satSucc8 (c : Byte) : Byte := if c = 0xFF then c else c + 1

/-- A count as an event detail (R162). -/
def detail (n : Nat) : BitVec 16 := BitVec.ofNat 16 n

/-- The states of a sequence word, bits 31 to 30 (R203). -/
def seqStable : BitVec 2 := 0
def seqWriting : BitVec 2 := 1
def seqTorn : BitVec 2 := 2

/-- A sequence word: state in bits 31 to 30, count in bits 29 to 0 (R203). -/
def seqWordOf (state : BitVec 2) (count : BitVec 30) : Word := state ++ count

/-- The one-word write of a sequence word, all four lanes (R104, R203). -/
def seqWrite (addr : WordAddr) (state : BitVec 2) (count : BitVec 30) : PortRequest :=
  { dir := .write, addr := addr, words := [{ lanes := allLanes, data := seqWordOf state count }] }

/-- The stamp word composed from the snapshot state: EMPTY, HELD, PENDING in bits 31 to 29, the low 29 bits of the front
bank's epoch below them, 0 when EMPTY (R66, R151, R204). -/
def stampWord (x : Group) : Word :=
  let empty : BitVec 1 := bif x.front.isNone then 1 else 0
  let held : BitVec 1 := bif x.held then 1 else 0
  let pending : BitVec 1 := match x.back with
    | .pending _ => 1
    | .idle => 0
    | .filling _ => 0
  let epoch : BitVec 29 := match x.front with
    | some b => b.epoch.extractLsb' 0 29
    | none => 0
  empty ++ held ++ pending ++ epoch

/-- The code of each event kind (R205). -/
def EventKind.code : EventKind → BitVec 4
  | .imageLate => 0
  | .sealCoalesced => 1
  | .sealRejected => 2
  | .imageDamaged => 3
  | .poolExhausted => 4
  | .commitBehind => 5
  | .commitFault => 6
  | .groupStale => 7
  | .groupRecovered => 8
  | .captureBehind => 9
  | .captureFault => 10
  | .holdExpired => 11
  | .syncMissed => 12
  | .syncLost => 13
  | .syncRegained => 14
  | .groupDrained => 15

/-- The nine bytes of an event record: presence bits and kind, group, source, epoch, detail (R205). -/
def EventRecord.bytes (e : EventRecord) : List Byte :=
  let g : BitVec 1 := bif e.group.isSome then 1 else 0
  let s : BitVec 1 := bif e.source.isSome then 1 else 0
  let p : BitVec 1 := bif e.epoch.isSome then 1 else 0
  [g ++ s ++ p ++ 0#1 ++ e.kind.code, BitVec.ofNat 8 (e.group.elim 0 Fin.val), BitVec.ofNat 8 (e.source.elim 0 Fin.val)]
    ++ bytes32 (e.epoch.getD 0) ++ bytes16 e.detail

/-- A flag as one payload byte: 0 or 1. -/
def flagByte (b : Bool) : Byte := bif b then 1 else 0

/-- The code of each response status (R202). -/
def statusCode : Status → Byte
  | .ok => 0x00
  | .pending => 0x01
  | .notReady => 0x02
  | .powered => 0x03
  | .truncated => 0x10
  | .badCheck => 0x11
  | .badCommand => 0x12
  | .badLength => 0x13
  | .badArgument => 0x20
  | .wrongState => 0x21
  | .noSpace => 0x22

/-- The bytes of a response frame: status, tag, length, payload, check (R182, R202). -/
def Response.bytes (r : Response) : List Byte := sealFrame (statusCode r.status) r.tag r.payload

/-- MDO is driven: MSEL, whose level comes from outside, is asserted and the RESET input is not (R174, R182).  DESIGN CHOICE: nor is
it driven in a select period that was in progress when RESET was released, of which R182 says only that it is ignored (log 30). -/
def State.mdoDriven (s : State) (msel : Bool) : Bool := msel && !s.resetAsserted && decide (s.link.receive ≠ .closed)

/-- The byte MDO carries, at a level of MSEL, at a byte position of the current transfer: the transmit copy's frame, then 0xFF (R175); none while MDO
is not driven. -/
def State.mdoByte (s : State) (msel : Bool) (i : Nat) : Option Byte :=
  if s.mdoDriven msel then some (s.link.transmit.bytes.getD i 0xFF) else none

/-- The bit MDO carries at a bit position of the current transfer: bytes most significant bit first (R174). -/
def State.mdoBit (s : State) (msel : Bool) (k : Nat) : Option Bool :=
  (s.mdoByte msel (k / 8)).map (fun b => b.getMsbD (k % 8))

end Sys2Proof.Machine
end

