-- ==== Sys2Proof/Machine/Flags.lean ====
section
/-! DEFINITION. The event queue: raising an event under the kind mask, the drop count, ALERT, and removal (chapter 8). -/

namespace Sys2Proof.Machine

/-- The enable of an event kind in the kind mask (R165, R205). -/
def EventQueue.enabled (q : EventQueue) (k : EventKind) : Bool := q.mask.getLsbD k.code.toNat

/-- An event is raised: discarded when its kind is disabled (R165); appended while the queue holds fewer than 64 records,
else dropped and counted (R166, R167).  ALERT is high after an append and after a drop (R171). -/
def EventQueue.raise (q : EventQueue) (e : EventRecord) : EventQueue :=
  if q.enabled e.kind then
    if q.records.length < Config.eventSlots then { q with records := q.records ++ [e], alert := true }
    else { q with dropCount := satSucc16 q.dropCount, alert := true }
  else q

/-- An event raised within a claim (R164). -/
def State.raise (e : EventRecord) (s : State) : State := { s with events := s.events.raise e }

/-- Up to n records leave the head of the queue, the drop count becomes 0, and ALERT is high exactly if records remain
(R168, R171). -/
def EventQueue.remove (n : Nat) (q : EventQueue) : EventQueue :=
  { q with records := q.records.drop n, dropCount := 0, alert := !(q.records.drop n).isEmpty }

/-- The queue after the start of a RESET_DEVICE: empty, drop count 0, ALERT low, the mask kept (R172). -/
def EventQueue.clear (q : EventQueue) : EventQueue := { q with records := [], dropCount := 0, alert := false }

/-- A record of a kind that carries a group alone (R163). -/
def groupEvent (k : EventKind) (g : GroupNo) (d : Nat) : EventRecord :=
  { kind := k, group := some g, source := none, epoch := none, detail := detail d }

/-- A record raised by a group at an edge: group, source and the edge's epoch number (R163). -/
def edgeEvent (k : EventKind) (g : GroupNo) (src : SourceNo) (epoch : BitVec 32) (d : Nat) : EventRecord :=
  { kind := k, group := some g, source := some src, epoch := some epoch, detail := detail d }

/-- A record of a job's fault: group and the job's epoch (R163). -/
def jobEvent (k : EventKind) (g : GroupNo) (epoch : BitVec 32) (d : BitVec 16) : EventRecord :=
  { kind := k, group := some g, source := none, epoch := some epoch, detail := d }

/-- A record of a source: source and its epoch number (R163). -/
def sourceEvent (k : EventKind) (src : SourceNo) (epoch : BitVec 32) (d : Nat) : EventRecord :=
  { kind := k, group := none, source := some src, epoch := some epoch, detail := detail d }

end Sys2Proof.Machine
end

