-- ==== Sys2Proof/Machine/Ops.lean ====
section
/-! DEFINITION. The named operations over the state: group slots, sources, jobs, deliveries, the memory port and the
response buffer. -/

namespace Sys2Proof.Machine

/-- The group in a slot; none when the slot is UNDEFINED (R2). -/
def State.group (s : State) (g : GroupNo) : Option Group := s.groups[g]

/-- The slot holds this group from now on. -/
def State.setGroup (g : GroupNo) (x : Group) (s : State) : State := { s with groups := s.groups.set g (some x) }

/-- The slot becomes UNDEFINED (R5). -/
def State.clearGroup (g : GroupNo) (s : State) : State := { s with groups := s.groups.set g none }

/-- The source in a slot. -/
def State.source (s : State) (n : SourceNo) : Source := s.sources[n]

/-- The source slot's record and running values change. -/
def State.setSource (n : SourceNo) (x : Source) (s : State) : State := { s with sources := s.sources.set n x }

/-- The free stage entries become n (R34). -/
def State.setFreeStage (n : Nat) (s : State) : State := { s with freeStage := n }

/-- The free safe entries become n (R132). -/
def State.setFreeSafe (n : Nat) (s : State) : State := { s with freeSafe := n }

/-- The free snapshot words become n (R140). -/
def State.setFreeSnapshot (n : Nat) (s : State) : State := { s with freeSnapshot := n }

/-- The deliveries still to be taken become these (R78). -/
def State.setEdges (es : List Edge) (s : State) : State := { s with edges := es }

/-- The engine's three places change (R101). -/
def State.setEngine (e : Engine) (s : State) : State := { s with engine := e }

/-- The host path changes (R55). -/
def State.setHost (h : HostPath) (s : State) : State := { s with host := h }

/-- The memory port is taken or free (R118). -/
def State.setPort (p : Option PortUse) (s : State) : State := { s with port := p }

/-- The event queue changes. -/
def State.setEvents (q : EventQueue) (s : State) : State := { s with events := q }

/-- The link changes. -/
def State.setLink (l : Link) (s : State) : State := { s with link := l }

/-- A job goes to the tail of the job queue (R102). -/
def State.appendJob (j : Job) (s : State) : State := s.setEngine { s.engine with queue := s.engine.queue ++ [j] }

/-- The running position holds this job, or is empty (R101). -/
def State.setRunning (j : Option Job) (s : State) : State := s.setEngine { s.engine with running := j }

/-- The response buffer holds a new response (R182, R183). -/
def State.respond (status : Status) (tag : Byte) (payload : List Byte) (s : State) : State :=
  s.setLink { s.link with response := { status := status, tag := tag, payload := payload } }

/-- The entries go back to the stage pool (R40 to R42). -/
def State.returnStage (n : Nat) (s : State) : State := s.setFreeStage (s.freeStage + n)

/-- Every offer of an edge to the group is void from now on: it has become DISABLED since the emission (R79). -/
def Edge.voidGroup (g : GroupNo) (e : Edge) : Edge :=
  { e with groups := e.groups.map (fun o => if o.group = g then { o with void := true } else o) }

/-- Every offer of an edge to the child is void from now on: it has been stopped or redefined since the emission (R80). -/
def Edge.voidChild (c : SourceNo) (e : Edge) : Edge :=
  { e with children := e.children.map (fun o => if o.child = c then { o with void := true } else o) }

/-- The group has become DISABLED: deliveries offered to it before have no effect (R79). -/
def State.voidGroup (g : GroupNo) (s : State) : State := s.setEdges (s.edges.map (Edge.voidGroup g))

/-- The child has been stopped or redefined: deliveries offered to it before have no effect (R80). -/
def State.voidChild (c : SourceNo) (s : State) : State := s.setEdges (s.edges.map (Edge.voidChild c))

/-- The total length of the enabled input groups (R140, R141). -/
def State.enabledInputWords (s : State) : Nat :=
  (s.groups.toList.map (fun o => match o with
    | some x => if x.enabled && decide (x.record.kind = .input) then x.record.length else 0
    | none => 0)).sum

/-- The margin a source's record gives a job created now, in µs (R96).  A job is created only for a group whose source has
a record; without one there is no margin. -/
def State.marginOf (s : State) (n : SourceNo) : Nat :=
  (s.source n).record.elim 0 (fun r => r.duration r.margin)

/-- A new COMMIT or SAFE job of an output group (R99): the count is the seq count plus 1, the BBM setting and the margin
are those of this moment, and the margin is expired at once when it is zero (R110). -/
def newImageJob (kind : JobKind) (g : GroupNo) (x : Group) (epoch : BitVec 32) (s : State) : Job where
  kind := kind
  group := g
  count := x.seqCount + 1
  epoch := epoch
  bbm := x.record.bbm
  margin := if x.record.bbm then s.marginOf x.record.source else 0
  marginExpired := x.record.bbm && decide (s.marginOf x.record.source = 0)
  phase := if x.record.bbm then .release else .plain
  progress := 0
  writingIssued := false
  closingIssued := false
  faulted := false
  faultPosition := none
  releaseData := none

/-- A new CAPTURE job of an input group (R99, R143). -/
def newCaptureJob (g : GroupNo) (epoch : BitVec 32) : Job where
  kind := .capture
  group := g
  count := 0
  epoch := epoch
  bbm := false
  margin := 0
  marginExpired := false
  phase := .capture
  progress := 0
  writingIssued := false
  closingIssued := false
  faulted := false
  faultPosition := none
  releaseData := none

/-- A COMMIT job is created from the armed image at an edge: the image moves to the committing slot, the stale count
becomes 0 and the job goes to the queue tail (R21). -/
def createCommit (g : GroupNo) (x : Group) (img : Image) (epoch : BitVec 32) (s : State) : State :=
  (s.setGroup g { x with armed := none, committing := some (.commit img), staleCount := 0 }).appendJob
    (newImageJob .commit g x epoch s)

/-- A SAFE job is created: the committing slot refers to the safe image, no SAFE job is pending any more, and the job goes
to the queue tail (R125, R126). -/
def createSafe (g : GroupNo) (x : Group) (epoch : BitVec 32) (s : State) : State :=
  (s.setGroup g { x with committing := some .safe, pendingSafe := false }).appendJob (newImageJob .safe g x epoch s)

/-- A CAPTURE job is created at an edge (R143). -/
def createCapture (g : GroupNo) (x : Group) (epoch : BitVec 32) (s : State) : State :=
  (s.setGroup g { x with captureInFlight := true }).appendJob (newCaptureJob g epoch)

/-- The offers of an edge that is emitted now: the enabled groups bound to the source, in ascending number (R78, R79). -/
def State.groupOffers (s : State) (n : SourceNo) : List GroupOffer :=
  (List.finRange 32).filterMap (fun g =>
    match s.group g with
    | some x => if x.enabled && decide (x.record.source = n) then some { group := g, void := false } else none
    | none => none)

/-- The source is RUNNING and DIVIDED with this parent (R78). -/
def Source.dividesFrom (x : Source) (parent : SourceNo) : Bool :=
  x.running && match x.record with
    | some r => match r.kind with
      | .divided p _ => decide (p = parent)
      | .timer _ => false
      | .external _ _ _ _ => false
    | none => false

/-- The RUNNING DIVIDED children of a source (R78). -/
def State.childOffers (s : State) (n : SourceNo) : List ChildOffer :=
  (List.finRange 4).filterMap (fun c =>
    if (s.source c).dividesFrom n then some { child := c, void := false } else none)

/-- An edge with no delivery left to take is forgotten. -/
def consEdge (e : Edge) (es : List Edge) : List Edge :=
  if e.groups.isEmpty && e.children.isEmpty then es else e :: es

/-- A source emits an edge (R78): its epoch number rises by 1 (R77), its EPOCH line changes level (R94), and the edge is
handed for delivery to the groups and children enabled and RUNNING at this moment. -/
def emitEdge (n : SourceNo) (s : State) : State :=
  let x := s.source n
  (s.setSource n { x with epoch := x.epoch + 1, line := !x.line }).setEdges
    (s.edges ++ consEdge { source := n, epoch := x.epoch + 1, groups := s.groupOffers n, children := s.childOffers n } [])

/-- A cause other than INSERT_EDGE: a pending skip is consumed in place of the edge (R78, R92). -/
def emitOrSkip (n : SourceNo) (s : State) : State :=
  let x := s.source n
  if x.skip then s.setSource n { x with skip := false } else emitEdge n s

end Sys2Proof.Machine
end

