-- ==== Sys2Proof/Machine/Images.lean ====
section
/-! DEFINITION. Output images: staging of host writes, sealing, and what a LIVE or SAFE output group does at an edge
(chapters 1, 2 and 6). -/

namespace Sys2Proof.Machine

/-- An empty, undamaged filling image (R10). -/
def Filling.fresh : Filling := { entries := [], damaged := false }

/-- The pool has no free entry: the word is refused, the filling image, created for this write if absent, is marked
damaged, and POOL_EXHAUSTED is raised if the flag was clear (R13, R39). -/
def refuseForPool (g : GroupNo) (x : Group) (f : Filling) (off : Byte) (s : State) : State :=
  let t := s.setGroup g { x with filling := some { f with damaged := true } }
  if f.damaged then t else t.raise (groupEvent .poolExhausted g off.toNat)

/-- A host write to a word of an output group in LIVE or SAFE is staged (R10 to R14, R37).  The answer says whether the
word was refused for lack of a stage entry (R39). -/
def stageWord (g : GroupNo) (off : Byte) (w : PortWord) (s : State) : Bool × State :=
  match s.group g with
  | none => (false, s)
  | some x =>
    if w.lanes = 0 then (false, s)
    else
      let f := x.filling.getD Filling.fresh
      if Image.holds f.entries off then
        (false, s.setGroup g { x with filling := some { f with entries := Image.mergeAt f.entries off w.data w.lanes } })
      else if s.freeStage = 0 then (true, refuseForPool g x f off s)
      else
        (false, (s.setGroup g { x with filling := some { f with
          entries := f.entries ++ [{ offset := off, data := w.data, lanes := w.lanes }] } }).setFreeStage (s.freeStage - 1))

/-- A sealed damaged filling image is discarded (R19). -/
def discardDamaged (g : GroupNo) (x : Group) (f : Filling) (s : State) : State :=
  ((s.setGroup g { x with filling := none, damaged := satSucc16 x.damaged }).returnStage f.entries.length).raise
    (groupEvent .imageDamaged g f.entries.length)

/-- A sealed filling image is merged into the armed image under COALESCE (R17); each filling entry whose offset armed
holds goes back to the pool (R40). -/
def coalesceSeal (g : GroupNo) (x : Group) (f : Filling) (armed : Image) (s : State) : State :=
  let merged := Image.coalesce armed f.entries
  ((s.setGroup g { x with filling := none, armed := some merged, coalesced := satSucc16 x.coalesced }).returnStage
    (armed.length + f.entries.length - merged.length)).raise (groupEvent .sealCoalesced g merged.length)

/-- A sealed filling image is discarded under REJECT (R18). -/
def rejectSeal (g : GroupNo) (x : Group) (f : Filling) (s : State) : State :=
  ((s.setGroup g { x with filling := none, rejected := satSucc16 x.rejected }).returnStage f.entries.length).raise
    (groupEvent .sealRejected g f.entries.length)

/-- A seal of the group's filling image, by its damaged flag, the armed slot and the seal policy (R16).  A seal that finds
no filling image has no effect (R15). -/
def sealImage (g : GroupNo) (s : State) : State :=
  match s.group g with
  | none => s
  | some x =>
    match x.filling with
    | none => s
    | some f =>
      if f.damaged then discardDamaged g x f s
      else
        match x.armed with
        | none => s.setGroup g { x with filling := none, armed := some f.entries }
        | some armed =>
          match x.record.policy with
          | .coalesce => coalesceSeal g x f armed s
          | .reject => rejectSeal g x f s

/-- A host write to the seal word: staged, then the filling image is sealed, in one claim (R15). -/
def stageAndSeal (g : GroupNo) (off : Byte) (w : PortWord) (s : State) : Bool × State :=
  ((stageWord g off w s).1, sealImage g (stageWord g off w s).2)

/-- An edge finds an armed image while a job of the group is in flight (R22). -/
def edgeBehind (g : GroupNo) (x : Group) (src : SourceNo) (epoch : BitVec 32) (s : State) : State :=
  (s.setGroup g { x with behind := satSucc16 x.behind }).raise (edgeEvent .commitBehind g src epoch 0)

/-- The group enters SAFE at an edge (R125): GROUP_STALE is raised, and with a safe image a SAFE job is created, or made
pending while a job is in flight; without one the group is frozen. -/
def enterSafe (g : GroupNo) (x : Group) (src : SourceNo) (epoch : BitVec 32) (s : State) : State :=
  let y := { x with state := .safe }
  let t := s.raise (edgeEvent .groupStale g src epoch (if x.safeImage.isSome then 1 else 0))
  if x.safeImage.isSome then
    if x.jobInFlight then t.setGroup g { y with pendingSafe := true } else createSafe g y epoch t
  else t.setGroup g y

/-- An edge that finds the armed slot absent advances the stale count when the stale limit is 1 or more (R124). -/
def advanceStale (g : GroupNo) (x : Group) (src : SourceNo) (epoch : BitVec 32) (s : State) : State :=
  if x.record.staleLimit = 0 then s
  else if x.staleCount + 1 = x.record.staleLimit then
    enterSafe g { x with staleCount := x.staleCount + 1 } src epoch s
  else s.setGroup g { x with staleCount := x.staleCount + 1 }

/-- IMAGE_LATE is raised when the edge finds a filling image and no armed one (R23). -/
def raiseLate (g : GroupNo) (x : Group) (src : SourceNo) (epoch : BitVec 32) (s : State) : State :=
  match x.filling with
  | some f => s.raise (edgeEvent .imageLate g src epoch f.entries.length)
  | none => s

/-- An edge delivered to an output group in LIVE (R20 to R24). -/
def edgeLive (g : GroupNo) (x : Group) (src : SourceNo) (epoch : BitVec 32) (s : State) : State :=
  match x.armed with
  | some img => if x.jobInFlight then edgeBehind g x src epoch s else createCommit g x img epoch s
  | none => advanceStale g x src epoch (raiseLate g x src epoch s)

/-- An edge delivered to an output group in SAFE (R128, R129). -/
def edgeSafe (g : GroupNo) (x : Group) (src : SourceNo) (epoch : BitVec 32) (s : State) : State :=
  if x.record.latch then s
  else
    match x.armed with
    | some img =>
      if x.jobInFlight then edgeBehind g x src epoch s
      else (createCommit g { x with state := .live } img epoch s).raise (edgeEvent .groupRecovered g src epoch 0)
    | none => s

/-- The group's completed or discarded images leave its slots, and it becomes DISABLED: the deliveries offered to it before
have no effect (R79). -/
def becomeDisabled (g : GroupNo) (x : Group) (s : State) : State :=
  (s.setGroup g { x with state := .disabled }).voidGroup g

/-- The completion of the group's COMMIT or SAFE job, taken as a claim on the group (R26, R41, R108): the seq count becomes
the job's count, the committing slot becomes absent and its stage entries go back to the pool; a DRAINING group becomes
DISABLED and raises GROUP_DRAINED; in SAFE a pending SAFE job is created now, with the source's current epoch (R99, R126). -/
def completeImageJob (j : Job) (s : State) : State :=
  match s.group j.group with
  | none => s
  | some x =>
    let y := { x with seqCount := j.count, committing := none }
    let t := s.returnStage (x.committing.elim 0 Committing.stageEntries)
    match x.record.kind, x.state with
    | .input, _ => s
    | .output, .draining => (becomeDisabled j.group y t).raise (groupEvent .groupDrained j.group 0)
    | .output, .safe =>
      if x.pendingSafe then createSafe j.group y (t.source x.record.source).epoch t else t.setGroup j.group y
    | .output, .live => t.setGroup j.group y
    | .output, .disabled => t.setGroup j.group y

end Sys2Proof.Machine
end

