-- ==== Sys2Proof/Machine/Snapshots.lean ====
section
/-! DEFINITION. Input groups: what an edge does, the life of a capture, holds, and the end of draining (chapter 7); and the
delivery of an edge to a group of either kind (R79). -/

namespace Sys2Proof.Machine

/-- A PENDING back bank swaps to the front and the back bank becomes IDLE; with no PENDING bank nothing is swapped
(R142, R146, R150). -/
def Group.swapPending (x : Group) : Group :=
  match x.back with
  | .pending b => { x with front := some b, back := .idle }
  | .idle => x
  | .filling _ => x

/-- The hold step of an edge in LIVE (R142).  HOLD_EXPIRED is raised before the forced release. -/
def advanceHold (g : GroupNo) (x : Group) (src : SourceNo) (epoch : BitVec 32) (s : State) : Group × State :=
  if x.held then
    let y := { x with holdCount := satSucc8 x.holdCount }
    if x.record.holdLimit ≠ 0 ∧ y.holdCount = x.record.holdLimit then
      ({ y.swapPending with held := false },
        s.raise (edgeEvent .holdExpired g src epoch y.holdCount.toNat))
    else (y, s)
  else (x, s)

/-- The capture step of an edge in LIVE (R143). -/
def captureAtEdge (g : GroupNo) (x : Group) (src : SourceNo) (epoch : BitVec 32) (s : State) : State :=
  if x.captureInFlight then (s.setGroup g x).raise (edgeEvent .captureBehind g src epoch 0)
  else createCapture g x epoch s

/-- An edge delivered to an input group in LIVE: the hold, then the capture, in one claim (R142, R143). -/
def edgeInput (g : GroupNo) (x : Group) (src : SourceNo) (epoch : BitVec 32) (s : State) : State :=
  captureAtEdge g (advanceHold g x src epoch s).1 src epoch (advanceHold g x src epoch s).2

/-- An edge of a source is delivered to a group, which acts according to its kind and state (R79).  DRAINING groups of
either kind take no effect (R25, R144). -/
def edgeToGroup (g : GroupNo) (src : SourceNo) (epoch : BitVec 32) (s : State) : State :=
  match s.group g with
  | none => s
  | some x =>
    match x.state, x.record.kind with
    | .live, .output => edgeLive g x src epoch s
    | .safe, .output => edgeSafe g x src epoch s
    | .live, .input => edgeInput g x src epoch s
    | .safe, .input => s
    | .draining, _ => s
    | .disabled, _ => s

/-- A claim on an input group; a slot that holds none is left alone. -/
def State.onInput (g : GroupNo) (s : State) (k : Group → State) : State :=
  match s.group g with
  | none => s
  | some x =>
    match x.record.kind with
    | .input => k x
    | .output => s

/-- The start of the group's capture: the back bank becomes FILLING, and a PENDING capture is discarded (R145). -/
def captureStart (g : GroupNo) (s : State) : State :=
  s.onInput g (fun x => s.setGroup g { x with back := .filling [] })

/-- The words a FILLING bank holds so far. -/
def BackBank.words : BackBank → List Word
  | .filling ws => ws
  | .idle => []
  | .pending b => b.words

/-- The words of a burst answered OKAY are placed in the back bank (R114). -/
def placeBurst (g : GroupNo) (data : List Word) (s : State) : State :=
  s.onInput g (fun x => s.setGroup g { x with back := .filling (x.back.words ++ data) })

/-- The draining of an input group ends: the capture is dropped, the banks go back to the store, the held flag is cleared,
the group becomes DISABLED and GROUP_DRAINED is raised (R155). -/
def endInputDrain (g : GroupNo) (x : Group) (s : State) : State :=
  ((becomeDisabled g { x with front := none, back := .idle, held := false, captureInFlight := false } s).setFreeSnapshot
    (s.freeSnapshot + 2 * x.record.length)).raise (groupEvent .groupDrained g 0)

/-- The completion of the group's capture (R147). -/
def completeCapture (j : Job) (s : State) : State :=
  s.onInput j.group (fun x =>
    let y := { x with captureInFlight := false }
    let bank : Bank := { epoch := j.epoch, words := x.back.words }
    match x.state with
    | .draining => endInputDrain j.group x s
    | .live =>
      if x.held then s.setGroup j.group { y with back := .pending bank }
      else s.setGroup j.group { y with front := some bank, back := .idle }
    | .safe => s.setGroup j.group { y with back := .idle }
    | .disabled => s.setGroup j.group { y with back := .idle })

/-- The failure of the group's capture, taken after CAPTURE_FAULT has been raised (R115, R148). -/
def failCapture (j : Job) (s : State) : State :=
  s.onInput j.group (fun x =>
    match x.state with
    | .draining => endInputDrain j.group x s
    | .live => s.setGroup j.group { x with captureInFlight := false, back := .idle }
    | .safe => s.setGroup j.group { x with captureInFlight := false, back := .idle }
    | .disabled => s.setGroup j.group { x with captureInFlight := false, back := .idle })

/-- A hold write: the held flag is set and the hold count becomes 0, in LIVE and in DRAINING (R149, R153). -/
def Group.hold (x : Group) : Group := { x with held := true, holdCount := 0 }

/-- A release write (R150): in LIVE a held group swaps a PENDING back bank to the front and is no longer held; in DRAINING
the held flag is cleared and nothing else (R153). -/
def Group.release (x : Group) : Group :=
  if x.held && decide (x.state = .live) then { x.swapPending with held := false } else { x with held := false }

/-- A write of class INPUT stamp: with lane 0 enabled, bit 0 of the data asks for a hold or a release; with lane 0 not
enabled it has no effect (R67). -/
def stampWrite (g : GroupNo) (w : PortWord) (s : State) : State :=
  match s.group g with
  | none => s
  | some x =>
    if w.lanes.getLsbD 0 then
      if w.data.getLsbD 0 then s.setGroup g x.hold else s.setGroup g x.release
    else s

end Sys2Proof.Machine
end

