-- ==== Sys2Proof/Machine/HostWords.lean ====
section
/-! DEFINITION. The words of the host path: their classes, the layered view and the words a group serves, and what the request's next
word asks of the memory port (chapter 3). -/

namespace Sys2Proof.Machine

/-- The class of a host word, with the group and the offset it touches (R52). -/
inductive WordClass where
  | pass
  | outputData (g : GroupNo) (off : Byte)
  | outputSeal (g : GroupNo) (off : Byte)
  | draining (g : GroupNo) (off : Byte)
  | seqProtected (g : GroupNo)
  | inputData (g : GroupNo) (off : Byte)
  | inputStamp (g : GroupNo) (off : Byte)
  deriving DecidableEq, Repr

/-- The class of a word of an enabled group's range (R52). -/
def rangeClass (g : GroupNo) (x : Group) (off : Byte) : WordClass :=
  match x.record.kind with
  | .output =>
    if x.state = .draining then .draining g off
    else if off = x.record.sealOffset then .outputSeal g off else .outputData g off
  | .input => if x.record.stampOffset = some off then .inputStamp g off else .inputData g off

/-- The class a group gives a word address, if the address is its concern: DISABLED groups have none (R52). -/
def groupClass (g : GroupNo) (x : Group) (a : Nat) : Option WordClass :=
  if !x.enabled then none
  else if x.record.covers a then some (rangeClass g x (BitVec.ofNat 8 (a - x.record.baseWord)))
  else if x.record.seqWord = some a then some (.seqProtected g)
  else none

/-- The class of a host word at the moment it is taken (R52, R53). -/
def classify (s : State) (a : WordAddr) : WordClass :=
  ((List.finRange 32).findSome? (fun g => (s.group g).bind (fun x => groupClass g x a.toNat))).getD .pass

/-- The front bank of a slot's group holds no capture (R139); an UNDEFINED slot has none. -/
def State.frontEmpty (s : State) (g : GroupNo) : Bool :=
  match s.group g with
  | some x => x.front.isNone
  | none => true

/-- The word is forwarded to memory (R55): a PASS word, a read of a SEQ-protected word, a write of an INPUT data word, or a
read of one whose group's front bank is EMPTY. -/
def forwarded (s : State) (d : Dir) : WordClass → Bool
  | .pass => true
  | .seqProtected _ => decide (d = .read)
  | .inputData g _ => decide (d = .write) || s.frontEmpty g
  | .outputData _ _ => false
  | .outputSeal _ _ => false
  | .draining _ _ => false
  | .inputStamp _ _ => false

/-- One holder of lanes in the layered view: the lanes still looked for that it holds are taken from its data word. -/
def takeLanes (acc : Word × Lanes) (e : Option Entry) : Word × Lanes :=
  match e with
  | none => acc
  | some e => (acc.1 ||| keepLanes e.data (acc.2 &&& e.lanes), acc.2 &&& ~~~e.lanes)

/-- The image lanes of the layered view at an offset, newest holder first: filling, armed, committing (R60); and the enabled
lanes no image holds. -/
def layeredLanes (x : Group) (off : Byte) (lanes : Lanes) : Word × Lanes :=
  takeLanes (takeLanes (takeLanes (0, lanes) (x.filling.bind (fun f => Image.entryAt f.entries off)))
    (x.armed.bind (fun i => Image.entryAt i off))) (Image.entryAt x.jobImage off)

/-- The layered view at an offset of a slot's group (R60). -/
def State.layered (s : State) (g : GroupNo) (off : Byte) (lanes : Lanes) : Word × Lanes :=
  match s.group g with
  | some x => layeredLanes x off lanes
  | none => (0, lanes)

/-- The word of a slot's front bank at an offset, in the enabled lanes (R64). -/
def State.frontWord (s : State) (g : GroupNo) (off : Byte) (lanes : Lanes) : Word :=
  match s.group g with
  | some x => keepLanes (x.front.elim 0 (fun b => b.words.getD off.toNat 0)) lanes
  | none => 0

/-- The stamp word of a slot's group in the enabled lanes (R66). -/
def State.stamp (s : State) (g : GroupNo) (lanes : Lanes) : Word :=
  match s.group g with
  | some x => keepLanes (stampWord x) lanes
  | none => 0

/-- The host path's active request changes. -/
def State.setActive (a : Option ActiveRequest) (s : State) : State := s.setHost { s.host with active := a }

/-- The address of the next word the host path takes. -/
def ActiveRequest.nextAddr (a : ActiveRequest) : WordAddr := a.request.addr + BitVec.ofNat 24 a.taken

/-- The gap a request stands at is behind it. -/
def ActiveRequest.passGap (a : ActiveRequest) : ActiveRequest := { a with gaps := a.gaps.filter (fun k => k != a.taken) }

/-- The wait for the lanes of a word that no image holds (R61). -/
def layeredWait (v : Word × Lanes) : Option HostWait := if v.2 = 0 then none else some (.layered v.1 v.2)

/-- What the request waits for if its next act is to ask for the memory port: its open run, when the run ends here (R55), or a layered
read of its next word (R61); none when it takes a word first, or has only its response to return. -/
def State.nextWait (s : State) (a : ActiveRequest) : Option HostWait :=
  match a.request.words[a.taken]? with
  | none => if a.run.isEmpty then none else some .run
  | some w =>
    if forwarded s a.request.dir (classify s a.nextAddr) then none
    else if !a.run.isEmpty then some .run
    else
      match a.request.dir, classify s a.nextAddr with
      | .read, .outputData g off => layeredWait (s.layered g off w.lanes)
      | .read, .outputSeal g off => layeredWait (s.layered g off w.lanes)
      | .read, .draining g off => layeredWait (s.layered g off w.lanes)
      | .read, .pass => none
      | .read, .seqProtected _ => none
      | .read, .inputData _ _ => none
      | .read, .inputStamp _ _ => none
      | .write, _ => none

end Sys2Proof.Machine
end

