-- ==== Sys2Proof/Machine/Engine.lean ====
section
/-! DEFINITION. The commit engine: the next request of a job, dispatch, the end of a phase, completion, the arbiter, and
the abandonment by RESET_DEVICE (chapter 5). -/

namespace Sys2Proof.Machine

/-- A COMMIT or SAFE job of a group with a seq address still owes its opening write (R104). -/
def Job.owesOpening (j : Job) (x : Group) : Bool := x.record.seqWord.isSome && !j.writingIssued

/-- The word address of the group's sequence word; meaningful only when the group has one. -/
def Group.seqWordAddr (x : Group) : WordAddr := BitVec.ofNat 24 (x.record.seqWord.getD 0)

/-- The opening write: WRITING and the job's count (R104). -/
def openingRequest (j : Job) (x : Group) : PortRequest := seqWrite x.seqWordAddr seqWriting j.count

/-- The closing write: TORN when the faulted flag is set, else STABLE, and the job's count (R104). -/
def closingRequest (j : Job) (x : Group) : PortRequest :=
  seqWrite x.seqWordAddr (if j.faulted then seqTorn else seqStable) j.count

/-- A data write: the entry's data word with its lane mask, at base + 4 × offset (R106, R107, R113). -/
def dataRequest (x : Group) (e : Entry) : PortRequest :=
  { dir := .write, addr := x.record.wordAt e.offset.toNat, words := [{ lanes := e.lanes, data := e.data }] }

/-- A release read: the entry's word, with its lane mask (R111). -/
def releaseReadRequest (x : Group) (e : Entry) : PortRequest :=
  { dir := .read, addr := x.record.wordAt e.offset.toNat, words := [readWord e.lanes] }

/-- A release write: the word read ANDed with the entry's word, same address and lane mask (R111). -/
def releaseWriteRequest (x : Group) (e : Entry) (w : Word) : PortRequest :=
  { dir := .write, addr := x.record.wordAt e.offset.toNat, words := [{ lanes := e.lanes, data := w }] }

/-- The number of words of a capture burst that begins at an offset: 16, or the words that remain (R114). -/
def burstLength (x : Group) (progress : Nat) : Nat := min Config.burstWords (x.record.length - progress)

/-- A capture burst: all four lanes of each word (R114). -/
def burstRequest (x : Group) (progress : Nat) : PortRequest :=
  { dir := .read, addr := x.record.wordAt progress, words := List.replicate (burstLength x progress) (readWord allLanes) }

/-- The closing write, when the group has a seq address (R104, R108). -/
def closingOf (j : Job) (x : Group) : Option PortUse :=
  if x.record.seqWord.isSome then some { purpose := .closing, request := closingRequest j x } else none

/-- The memory request a running job issues next; none when its phase has no further request (R104 to R108, R111, R113,
R114). -/
def nextRequest (j : Job) (x : Group) : Option PortUse :=
  match j.phase with
  | .capture =>
    if j.progress < x.record.length then some { purpose := .burst, request := burstRequest x j.progress } else none
  | .plain =>
    if j.owesOpening x then some { purpose := .opening, request := openingRequest j x }
    else
      match x.jobImage[j.progress]? with
      | some e => some { purpose := .dataWrite, request := dataRequest x e }
      | none => closingOf j x
  | .engage =>
    match x.jobImage[j.progress]? with
    | some e => some { purpose := .dataWrite, request := dataRequest x e }
    | none => closingOf j x
  | .release =>
    if j.owesOpening x then some { purpose := .opening, request := openingRequest j x }
    else
      match x.jobImage[j.progress]? with
      | some e =>
        match j.releaseData with
        | none => some { purpose := .releaseRead, request := releaseReadRequest x e }
        | some w => some { purpose := .releaseWrite, request := releaseWriteRequest x e w }
      | none => none

/-- The request was granted to the engine (R118). -/
def Purpose.isEngine : Purpose → Bool
  | .run => false
  | .layered => false
  | .opening => true
  | .dataWrite => true
  | .releaseRead => true
  | .releaseWrite => true
  | .closing => true
  | .burst => true
  | .torn => true

/-- The engine waits for the answer of a memory request of its own. -/
def State.engineBusy (s : State) : Bool := s.port.elim false (fun u => u.purpose.isEngine)

/-- The detail of a COMMIT_FAULT: the offset, or 65535 for the sequence word (R108). -/
def FaultPosition.detail : FaultPosition → BitVec 16
  | .offset o => o.setWidth 16
  | .sequenceWord => 0xFFFF

/-- The close of a COMMIT or SAFE job ends: it leaves the running position, COMMIT_FAULT is raised if its faulted flag is
set, and its completion is handed to the group (R108). -/
def closeJob (j : Job) (s : State) : State :=
  let t := s.setRunning none
  completeImageJob j
    (if j.faulted then t.raise (jobEvent .commitFault j.group j.epoch (j.faultPosition.elim 0 FaultPosition.detail)) else t)

/-- The RELEASE phase of a BBM job ends: it turns to ENGAGE and goes to the queue tail if its margin has expired, else to
the margin list (R111). -/
def endRelease (j : Job) (s : State) : State :=
  let k := { j with phase := .engage, progress := 0 }
  let t := s.setRunning none
  if j.marginExpired then t.appendJob k
  else t.setEngine { t.engine with marginList := t.engine.marginList ++ [k] }

/-- The running job has no further request in its phase: its release ends, it closes, or its capture completes
(R108, R111, R116). -/
def endPhase (j : Job) (s : State) : State :=
  match j.phase with
  | .release => endRelease j s
  | .plain => closeJob j s
  | .engage => closeJob j s
  | .capture => completeCapture j (s.setRunning none)

/-- The head of the queue enters the running position; a capture's start is handed to its group (R103, R145). -/
def dispatch (j : Job) (rest : List Job) (s : State) : State :=
  let t := s.setEngine { s.engine with queue := rest, running := some j }
  match j.kind with
  | .capture => captureStart j.group t
  | .commit => t
  | .safe => t

/-- The engine goes on until it waits for the port or has no job to run: it dispatches the head of the queue when nothing
runs, and ends the phase of a running job that has no further request (R103). -/
def pumpEngine : Nat → State → State
  | 0, s => s
  | n + 1, s =>
    match s.engine.running with
    | none =>
      match s.engine.queue with
      | [] => s
      | j :: rest => pumpEngine n (dispatch j rest s)
    | some j =>
      match (s.group j.group).bind (nextRequest j) with
      | some _ => s
      | none => pumpEngine n (endPhase j s)

/-- More rounds than the engine can need at once: each job in the queue or running, and each SAFE job that a completion can
create for one of the 32 groups, is dispatched at most twice and has each dispatch ended at most once. -/
def State.pumpRounds (s : State) : Nat := 4 * (s.engine.queue.length + 33)

/-- The engine's waiting memory request (R118): the first TORN write due once RESET_DEVICE has abandoned the jobs, nothing
between the beginning of the reset and the abandonment, and otherwise the next request of the running job. -/
def State.engineAsk (s : State) : Option PortUse :=
  match s.resetting with
  | some r =>
    if r.abandoned then
      r.torn.head?.map (fun t => { purpose := .torn, request := seqWrite t.addr seqTorn t.count })
    else none
  | none => s.engine.running.bind (fun j => (s.group j.group).bind (nextRequest j))

/-- The open run as one memory request: its first address, and its words (R55). -/
def ActiveRequest.runRequest (a : ActiveRequest) : PortRequest :=
  { dir := a.request.dir, addr := a.request.addr + BitVec.ofNat 24 (a.taken - a.run.length), words := a.run }

/-- The host path's waiting memory request (R68, R118); nothing while RESET_DEVICE executes (R69). -/
def State.hostAsk (s : State) : Option PortUse :=
  if s.resetting.isSome then none
  else
    s.host.active.bind (fun a =>
      match a.wait with
      | .nothing => none
      | .run => some { purpose := .run, request := a.runRequest }
      | .layered _ lanes =>
        some { purpose := .layered, request := { dir := .read, addr := a.nextAddr, words := [readWord lanes] } })

/-- The running job notes that its opening or closing sequence-word write has been issued (R99, R104, R121). -/
def Job.noteIssued (j : Job) (p : Purpose) : Job :=
  match p with
  | .opening => { j with writingIssued := true }
  | .closing => { j with closingIssued := true }
  | .run | .layered | .dataWrite | .releaseRead | .releaseWrite | .burst | .torn => j

/-- The port is granted to the engine's request; the streak becomes n (R118). -/
def grantEngine (u : PortUse) (n : Nat) (s : State) : State :=
  { (s.setRunning (s.engine.running.map (fun j => j.noteIssued u.purpose))).setPort (some u) with streak := n }

/-- The port is granted to the host path's request; the streak becomes 0 (R118). -/
def grantHost (u : PortUse) (s : State) : State := { s.setPort (some u) with streak := 0 }

/-- The arbiter grants a free port by the table of R118. -/
def arbitrate (s : State) : State :=
  match s.port with
  | some _ => s
  | none =>
    match s.engineAsk, s.hostAsk with
    | none, none => s
    | some u, none => grantEngine u 0 s
    | none, some v => grantHost v s
    | some u, some v => if s.streak < Config.streakLimit then grantEngine u (s.streak + 1) s else grantHost v s

/-- A host request that stands at a joined gap and asks for the port next arrives together with an engine request that has come to the
free port: both are then waiting when the grant is made (R118, log 27).  One that takes a word first does not arrive. -/
def joinHost (s : State) : State :=
  match s.host.active with
  | some a =>
    if s.port.isNone && s.resetting.isNone && s.engineAsk.isSome
        && decide (a.wait = .nothing ∧ a.taken ∈ a.gaps ∧ a.taken ∈ a.joined) then
      match s.nextWait a with
      | some h => s.setHost { s.host with active := some { a.passGap with wait := h } }
      | none => s
    else s
  | none => s

/-- The end of a step: the engine goes on, unless it waits for an answer or RESET_DEVICE executes (R120), and then the
arbiter grants the port (log 9).  DESIGN CHOICE: the grant ends the step of each command, so what two commands bring
arrives one after the other, but for a host request at a joined gap, which arrives together with what is brought there
(log 27). -/
def settle (s : State) : State :=
  arbitrate (joinHost (if s.engineBusy || s.resetting.isSome then s else pumpEngine s.pumpRounds s))

/-- The jobs the engine holds, in any of the three places (R101). -/
def Engine.jobs (e : Engine) : List Job := e.running.toList ++ e.queue ++ e.marginList

/-- The abandoned job is owed a TORN write: its WRITING was issued and its closing write was not (R121). -/
def Job.owesTorn (j : Job) : Bool := decide (j.kind ≠ .capture) && j.writingIssued && !j.closingIssued

/-- The TORN writes due at the abandonment, in ascending group number, for groups with a seq address (R121). -/
def State.tornDue (s : State) : List TornWrite :=
  (List.finRange 32).filterMap (fun g =>
    (s.engine.jobs.find? (fun j => decide (j.group = g) && j.owesTorn)).bind (fun j =>
      (s.group g).bind (fun x => x.record.seqWord.map (fun a => { addr := BitVec.ofNat 24 a, count := j.count }))))

/-- An enabled group becomes DISABLED at the abandonment: its images, its pending SAFE job, its banks and its held flag are
gone, and its counts keep their values (R32, R161). -/
def Group.abandoned (x : Group) : Group :=
  if x.enabled then
    { x with state := .disabled, filling := none, armed := none, committing := none, pendingSafe := false,
             front := none, back := .idle, captureInFlight := false, held := false }
  else x

/-- RESET_DEVICE has ended: the buffer holds OK with the reset's tag (R200). -/
def endReset (tag : Byte) (s : State) : State := { s.respond .ok tag [] with resetting := none }

/-- The abandonment: every job is gone, the streak is 0, enabled groups are DISABLED, the stage pool and the snapshot store
are wholly free, and the TORN writes are due (R48, R120, R121, R161, R199). -/
def abandonWork (r : Resetting) (s : State) : State :=
  { s with
    groups := s.groups.map (fun o => o.map Group.abandoned)
    freeStage := Config.stageEntries
    freeSnapshot := Config.snapshotWords
    engine := Engine.empty
    streak := 0
    resetting := some { r with abandoned := true, torn := s.tornDue } }

end Sys2Proof.Machine
end

