-- ==== Sys2Proof/Machine/HostPath.lean ====
section
/-! DEFINITION. The host path: what each word does, runs, the response, and the acceptance of requests (chapter 3). -/

namespace Sys2Proof.Machine

/-- The request's next word has been taken, with its read data word if it is a read. -/
def ActiveRequest.tookWord (a : ActiveRequest) (refused : Bool) (d : Option Word) : ActiveRequest :=
  { a with taken := a.taken + 1, faulted := a.faulted || refused, data := a.data ++ d.toList }

/-- A read word of an output group: served from the images, or, when an enabled lane is held by none of them, a one-word
memory read is asked for (R60, R61). -/
def takeLayered (a : ActiveRequest) (v : Word × Lanes) (s : State) : State :=
  if v.2 = 0 then s.setActive (some (a.tookWord false (some v.1)))
  else s.setActive (some { a with wait := .layered v.1 v.2 })

/-- A word that is not forwarded takes effect (R58 to R60, R64, R66, R67).  A refused write counts in the request's
status (R56, R59). -/
def takeWord (a : ActiveRequest) (w : PortWord) (c : WordClass) (s : State) : State :=
  match a.request.dir, c with
  | .write, .outputData g off =>
    (stageWord g off w s).2.setActive (some (a.tookWord (stageWord g off w s).1 none))
  | .write, .outputSeal g off =>
    (stageAndSeal g off w s).2.setActive (some (a.tookWord (stageAndSeal g off w s).1 none))
  | .write, .draining _ _ => s.setActive (some (a.tookWord true none))
  | .write, .seqProtected _ => s.setActive (some (a.tookWord true none))
  | .write, .inputStamp g _ => (stampWrite g w s).setActive (some (a.tookWord false none))
  | .read, .outputData g off => takeLayered a (s.layered g off w.lanes) s
  | .read, .outputSeal g off => takeLayered a (s.layered g off w.lanes) s
  | .read, .draining g off => takeLayered a (s.layered g off w.lanes) s
  | .read, .inputData g off => s.setActive (some (a.tookWord false (some (s.frontWord g off w.lanes))))
  | .read, .inputStamp g _ => s.setActive (some (a.tookWord false (some (s.stamp g w.lanes))))
  | .read, .seqProtected _ => s
  | .read, .pass => s
  | .write, .pass => s
  | .write, .inputData _ _ => s

/-- The request's single response is returned, and the host port is free for the next request (R49, R56). -/
def respondHost (r : HostResponse) (s : State) : State :=
  s.setHost { s.host with active := none, responses := s.host.responses ++ [r] }

/-- The host path takes the words of its request in ascending address order until it stands at a gap, a word needs the
memory port or the request ends (R55).  A forwarded word joins the open run; a word that is not forwarded ends it: the run is asked for first
and the word is taken, and classified afresh, after the run's response. -/
def takeWords : Nat → State → State
  | 0, s => s
  | n + 1, s =>
    match s.host.active with
    | none => s
    | some a =>
      if a.wait ≠ .nothing ∨ a.taken ∈ a.gaps then s
      else
        match a.request.words[a.taken]? with
        | none =>
          if a.run.isEmpty then
            respondHost { status := if a.faulted then .fault else .okay, data := a.data } s
          else s.setActive (some { a with wait := .run })
        | some w =>
          let c := classify s a.nextAddr
          if forwarded s a.request.dir c then
            takeWords n (s.setActive (some { a with run := a.run ++ [w], taken := a.taken + 1 }))
          else if a.run.isEmpty then takeWords n (takeWord a w c s)
          else s.setActive (some { a with wait := .run })

/-- A request as it is when it has been accepted and no word of it has been taken (R49). -/
def ActiveRequest.accepted (r : HostRequest) : ActiveRequest where
  request := r.toPortRequest
  taken := 0
  run := []
  faulted := false
  data := []
  wait := .nothing
  gaps := r.gaps
  joined := r.joined

/-- A request is accepted (R49); one whose last word would lie at or beyond the 64 MB limit is refused whole, with zero data
for a read (R50). -/
def acceptRequest (r : HostRequest) (s : State) : State :=
  if Config.addressWords < r.addr.toNat + r.words.length then
    respondHost { status := .fault, data := if r.dir = .read then List.replicate r.words.length 0 else [] } s
  else s.setActive (some (ActiveRequest.accepted r))

/-- The host path goes on: it takes words, and when its request has been answered it accepts the oldest request held off at
the host port, if any (R49, R55). -/
def pumpHost : Nat → State → State
  | 0, s => s
  | n + 1, s =>
    let t := takeWords (Config.burstWords + 2) s
    match t.host.active, t.host.waiting with
    | none, r :: rest => pumpHost n (acceptRequest r (t.setHost { t.host with waiting := rest }))
    | none, [] => t
    | some _, _ => t

/-- The host path goes on, unless RESET_DEVICE executes: then it takes no word and accepts no request (R69).  DESIGN CHOICE: the
rule has the last memory answer of a request recorded during the reset and does not say when its response is returned; the
response is returned at the reset's end, after the TORN writes (log 28). -/
def runHost (s : State) : State :=
  if s.resetting.isSome then s else pumpHost (s.host.waiting.length + 1) s

/-- The address of a word of the open run. -/
def ActiveRequest.runAddr (a : ActiveRequest) (k : Nat) : WordAddr :=
  a.request.addr + BitVec.ofNat 24 (a.taken - a.run.length + k)

/-- The open run ends before its word k; that word and those after it are still to be taken.  A request that stands at a gap stands
there still. -/
def ActiveRequest.cutRun (a : ActiveRequest) (k : Nat) : ActiveRequest :=
  let n := a.taken - (a.run.length - k)
  { a with
    run := a.run.take k
    taken := n
    wait := if k = 0 then .nothing else a.wait
    gaps := if a.wait = .nothing then n :: a.gaps else a.gaps }

/-- The host path has a write run that is open, or waits for its grant: it has not been issued. -/
def State.writeWaits (s : State) (a : ActiveRequest) : Bool :=
  decide (a.request.dir = .write) && s.port.elim true (fun u => decide (u.purpose ≠ .run))

/-- An output group has been enabled: from this moment no host write to its range or sequence word is forwarded (R27, R58, R207).  A
write run that has not been issued is cut before its first word of the group; that word and those after it are taken
afresh, as if they came after the enable (R6).  DESIGN CHOICE: R6 and R55 have such a word, taken while the group was DISABLED,
forwarded, and do not say what becomes of it when the enable comes before the grant (log 29). -/
def withdrawRun (r : GroupRecord) (s : State) : State :=
  match s.host.active with
  | some a =>
    if s.writeWaits a then
      match (List.range a.run.length).find? (fun k => r.touches (a.runAddr k).toNat) with
      | some k => settle (runHost (s.setActive (some (a.cutRun k))))
      | none => s
    else s
  | none => s

/-- What the part does while no command waits: a host request that stands at a gap goes on to its next gap (R55).  DESIGN CHOICE:
only then, so that every command that waits comes between its words (log 2, log 8). -/
def tick (s : State) : State :=
  match s.host.active with
  | some a =>
    if s.resetAsserted || s.resetting.isSome || decide (a.wait ≠ .nothing) then s
    else settle (runHost (s.setActive (some a.passGap)))
  | none => s

/-- RESET_DEVICE ends when no TORN write is due any more: the buffer holds OK and the host path resumes (R199, R200);
otherwise the next TORN write is granted the port (R121). -/
def continueReset (r : Resetting) (s : State) : State :=
  if r.torn.isEmpty then settle (runHost (endReset r.tag s)) else arbitrate s

/-- The abandonment, and the first TORN write or the end of the reset (R199). -/
def abandon (r : Resetting) (s : State) : State :=
  continueReset { r with abandoned := true, torn := s.tornDue } (abandonWork r s)

/-- After a memory request has been answered and its answer recorded: RESET_DEVICE abandons the work at this response
(R120, R199); otherwise the part goes on. -/
def afterAnswer (s : State) : State :=
  match s.resetting with
  | some r => if r.abandoned then s else abandon r s
  | none => settle s

end Sys2Proof.Machine
end

