-- ==== Sys2Proof/Machine/Sources.lean ====
section
/-! DEFINITION. Epoch sources: timers, synchronisation edges, delivery of edges to groups and to DIVIDED children
(chapter 4), with the meanings of TIMER_EXPIRY, SYNC_RISING_EDGE, WATCH_EXPIRY, STAND_IN_EXPIRY, ABSORB_WINDOW_CLOSE,
EDGE_DELIVERY and PARENT_EDGE_DELIVERY. -/

namespace Sys2Proof.Machine

/-- The answer of a step of this machine. -/
abbrev Result := Host.Outcome State Fault Refusal

/-- While the RESET input is asserted only POWER_ON and RESET_ASSERT have an effect.  DESIGN CHOICE (log 13). -/
def unlessReset (s : State) (r : Result) : Result := if s.resetAsserted then .next s else r

/-- The watch of an EXTERNAL source: period + guard (section 4.5). -/
def SourceRecord.watchDuration (r : SourceRecord) (period guard : BitVec 16) : Nat := r.duration period + r.duration guard

/-- A TIMER's countdown expires: it reloads with the full period, and the source emits an edge or consumes a skip (R81). -/
def timerExpired (n : SourceNo) (s : State) : State :=
  let x := s.source n
  match x.running, x.record with
  | true, some r =>
    match r.kind with
    | .timer p => emitOrSkip n (s.setSource n { x with countdown := some (r.duration p) })
    | .external _ _ _ _ => s
    | .divided _ _ => s
  | _, _ => s

/-- The source locks on a rising edge: LOCKED, holdover count 0, watch started from it, no other timer (R84, R87, R88). -/
def Source.relock (x : Source) (watch : Nat) : Source :=
  { x with lock := .locked, holdover := 0, watch := some watch, standIn := none, absorbWindow := none }

/-- A rising SYNC edge at a RUNNING EXTERNAL source, by its sub-state (R84, R87, R88). -/
def syncAtSource (n : SourceNo) (watch : Nat) (s : State) : State :=
  let x := s.source n
  match x.lock with
  | .await => emitOrSkip n (s.setSource n (x.relock watch))
  | .locked => emitOrSkip n (s.setSource n { x with watch := some watch })
  | .holdover =>
    if x.absorbWindow.isSome then s.setSource n (x.relock watch)
    else emitOrSkip n (s.setSource n (x.relock watch))
  | .lost =>
    let t := emitOrSkip n (s.setSource n (x.relock watch))
    t.raise (sourceEvent .syncRegained n (t.source n).epoch 0)

/-- A rising edge on a SYNC line, at one source: only a RUNNING EXTERNAL source that follows the line observes it (R83). -/
def observeSync (line : SyncLine) (n : SourceNo) (s : State) : State :=
  let x := s.source n
  match x.running, x.record with
  | true, some r =>
    match r.kind with
    | .external p g _ l => if l = line then syncAtSource n (r.watchDuration p g) s else s
    | .timer _ => s
    | .divided _ _ => s
  | _, _ => s

/-- The source enters LOST: no timer runs, the absorb window closes, and SYNC_LOST is raised with the holdover count
(R85, R86). -/
def enterLost (n : SourceNo) (s : State) : State :=
  let x := s.source n
  (s.setSource n { x with lock := .lost, watch := none, standIn := none, absorbWindow := none }).raise
    (sourceEvent .syncLost n x.epoch x.holdover.toNat)

/-- A stand-in edge, emitted or skipped: the holdover count becomes h, the stand-in timer starts with one period and an
absorb window of guard units opens (R85, R86, R87, R92). -/
def standInEdge (n : SourceNo) (h : Byte) (period guard : Nat) (s : State) : State :=
  let x := s.source n
  emitOrSkip n (s.setSource n { x with
    lock := .holdover, holdover := h, watch := none, standIn := some period, absorbWindow := some guard })

/-- The watch of a LOCKED source expires (R85). -/
def watchExpired (n : SourceNo) (s : State) : State :=
  let x := s.source n
  match x.running, x.record with
  | true, some r =>
    match r.kind with
    | .external p g limit _ =>
      if x.lock = .locked ∧ x.watch.isSome then
        if limit = 0 then enterLost n s
        else
          let t := standInEdge n 1 (r.duration p) (r.duration g) s
          t.raise (sourceEvent .syncMissed n (t.source n).epoch 0)
      else s
    | .timer _ => s
    | .divided _ _ => s
  | _, _ => s

/-- The stand-in timer of a HOLDOVER source expires (R86). -/
def standInExpired (n : SourceNo) (s : State) : State :=
  let x := s.source n
  match x.running, x.record with
  | true, some r =>
    match r.kind with
    | .external p g limit _ =>
      if x.lock = .holdover ∧ x.standIn.isSome then
        if x.holdover < limit then standInEdge n (x.holdover + 1) (r.duration p) (r.duration g) s
        else enterLost n s
      else s
    | .timer _ => s
    | .divided _ _ => s
  | _, _ => s

/-- The absorb window closes (R87); the close of a window that is not open does not happen. -/
def absorbClosed (n : SourceNo) (s : State) : State :=
  s.setSource n { s.source n with absorbWindow := none }

/-- The oldest edge of the source that still has an offer to the group, with that offer taken from it: the edge's epoch, and
whether the offer is void.  Within one edge the offers are taken in ascending group number, so only the first offer that is
left can be taken (R78, R79). -/
def takeGroupOffer (n : SourceNo) (g : GroupNo) : List Edge → Option (BitVec 32 × Bool × List Edge)
  | [] => none
  | e :: es =>
    if e.source = n ∧ e.groups.any (fun o => o.group == g) then
      match e.groups with
      | o :: os => if o.group = g then some (e.epoch, o.void, consEdge { e with groups := os } es) else none
      | [] => none
    else (takeGroupOffer n g es).map (fun (ep, v, rest) => (ep, v, e :: rest))

/-- The oldest edge of the parent that still has an offer to the child, with that offer taken from it (R78, R80). -/
def takeChildOffer (n c : SourceNo) : List Edge → Option (Bool × List Edge)
  | [] => none
  | e :: es =>
    if e.source = n then
      match e.children.find? (fun o => o.child == c) with
      | some o => some (o.void, consEdge { e with children := e.children.erase o } es)
      | none => (takeChildOffer n c es).map (fun (v, rest) => (v, e :: rest))
    else (takeChildOffer n c es).map (fun (v, rest) => (v, e :: rest))

/-- A parent's edge at a RUNNING DIVIDED child: the phase count advances, and at the divisor it becomes 0 and the child emits
an edge or consumes a skip (R90). -/
def parentEdge (c : SourceNo) (s : State) : State :=
  let x := s.source c
  match x.running, x.record with
  | true, some r =>
    match r.kind with
    | .divided _ d =>
      if x.phase + 1 < d then s.setSource c { x with phase := x.phase + 1 }
      else emitOrSkip c (s.setSource c { x with phase := 0 })
    | .timer _ => s
    | .external _ _ _ _ => s
  | _, _ => s

/-- A delivery to a group: a void offer has no effect (R79); a job it creates joins the queue and may be dispatched in the
same claim (R79, R103). -/
def deliverToGroup (n : SourceNo) (g : GroupNo) (s : State) : State :=
  match takeGroupOffer n g s.edges with
  | none => s
  | some (epoch, void, rest) =>
    if void then s.setEdges rest else settle (edgeToGroup g n epoch (s.setEdges rest))

/-- A delivery to a DIVIDED child: a void offer is ignored (R80). -/
def deliverToChild (n c : SourceNo) (s : State) : State :=
  match takeChildOffer n c s.edges with
  | none => s
  | some (void, rest) => if void then s.setEdges rest else parentEdge c (s.setEdges rest)

/-- TIMER_EXPIRY.  An expiry of a countdown that does not run does not happen (R76, R82). -/
def execTimerExpiry (n : SourceNo) (s : State) : Result := unlessReset s (.next (timerExpired n s))

/-- SYNC_RISING_EDGE, taken by each RUNNING EXTERNAL source that follows the line (R83), in ascending number (log 12). -/
def execSyncRisingEdge (line : SyncLine) (s : State) : Result :=
  unlessReset s (.next (observeSync line 3 (observeSync line 2 (observeSync line 1 (observeSync line 0 s)))))

/-- WATCH_EXPIRY.  An expiry of a watch that does not run does not happen (R89). -/
def execWatchExpiry (n : SourceNo) (s : State) : Result := unlessReset s (.next (watchExpired n s))

/-- STAND_IN_EXPIRY.  An expiry of a stand-in timer that does not run does not happen (R89). -/
def execStandInExpiry (n : SourceNo) (s : State) : Result := unlessReset s (.next (standInExpired n s))

/-- ABSORB_WINDOW_CLOSE (R87, R89). -/
def execAbsorbWindowClose (n : SourceNo) (s : State) : Result := unlessReset s (.next (absorbClosed n s))

/-- EDGE_DELIVERY of an edge of the source to the group (R79).  A delivery that is not due changes nothing (log 4). -/
def execEdgeDelivery (n : SourceNo) (g : GroupNo) (s : State) : Result := unlessReset s (.next (deliverToGroup n g s))

/-- PARENT_EDGE_DELIVERY of an edge of the parent to the child (R80, R90).  A delivery that is not due changes nothing. -/
def execParentEdgeDelivery (n c : SourceNo) (s : State) : Result := unlessReset s (.next (deliverToChild n c s))

end Sys2Proof.Machine
end

