-- ==== Sys2Proof/Machine/Answers.lean ====
section
/-! DEFINITION. The host port and the memory's answers: HOST_REQUEST, RUN_RESPONSE, LAYERED_READ_RESPONSE, the answers to the
engine's requests, TORN_WRITE_RESPONSE and MARGIN_EXPIRY (chapters 3 and 5). -/

namespace Sys2Proof.Machine

/-- The outstanding memory request, if it is of this purpose. -/
def State.outstanding (s : State) (p : Purpose) : Option PortRequest :=
  s.port.bind (fun u => if u.purpose = p then some u.request else none)

/-- The answer to a memory request of the host path: the port is free, and the rest follows for the active request.  An
answer to no such request cannot come (R51). -/
def hostAnswer (p : Purpose) (s : State) (k : PortRequest → ActiveRequest → State → Result) : Result :=
  match s.outstanding p, s.host.active with
  | some q, some a => k q a (s.setPort none)
  | _, _ => .fault .unexpectedResponse

/-- The answer to a memory request of the running job: the port is free, and the rest follows for the job. -/
def jobAnswer (p : Purpose) (s : State) (k : Job → State → Result) : Result :=
  match s.outstanding p, s.engine.running with
  | some _, some j => k j (s.setPort none)
  | _, _ => .fault .unexpectedResponse

/-- A FAULT answer sets the job's faulted flag, and its position is recorded if none is yet (R109, R113). -/
def Job.noteAnswer (j : Job) (st : PortStatus) (pos : FaultPosition) : Job :=
  match st with
  | .okay => j
  | .fault => { j with faulted := true, faultPosition := some (j.faultPosition.getD pos) }

/-- The entry of the image the job's progress stands at. -/
def State.currentEntry (s : State) (j : Job) : Option Entry :=
  (s.group j.group).bind (fun x => x.jobImage[j.progress]?)

/-- The offset of that entry as a fault position. -/
def State.currentPosition (s : State) (j : Job) : FaultPosition :=
  .offset ((s.currentEntry j).elim 0 (fun e => e.offset))

/-- HOST_REQUEST: the request is held off at the host port while an earlier one is inside the part (R49) or RESET_DEVICE
executes (R69); otherwise it is accepted and its words are taken up to its first gap (R55). -/
def execHostRequest (r : HostRequest) (s : State) : Result :=
  if r.wellFormed then
    unlessReset s (.next (settle (runHost (s.setHost { s.host with waiting := s.host.waiting ++ [r] }))))
  else .fault .illFormed

/-- The open run has been answered: its read data, or zeros when the answer is FAULT, join the read data, and a FAULT sets
the request's status (R56, R57). -/
def ActiveRequest.runAnswered (a : ActiveRequest) (st : PortStatus) (data : List Word) : ActiveRequest :=
  let words := match a.request.dir, st with
    | .write, _ => []
    | .read, .okay => data
    | .read, .fault => List.replicate a.run.length 0
  { a with run := [], wait := .nothing, data := a.data ++ words, faulted := a.faulted || decide (st = .fault) }

/-- RUN_RESPONSE: the memory's answer to a forwarded run is recorded, and the host path goes on (R55, R57). -/
def execRunResponse (st : PortStatus) (data : List Word) (s : State) : Result :=
  unlessReset s (hostAnswer .run s (fun q a t =>
    if st = .okay ∧ q.dir = .read ∧ data.length ≠ q.words.length then .fault .malformedResponse
    else .next (afterAnswer (runHost (t.setActive (some (a.runAnswered st data)))))))

/-- The layered read has been answered: memory supplies the lanes no image held, or zeros and FAULT (R61, R63). -/
def ActiveRequest.layeredAnswered (a : ActiveRequest) (st : PortStatus) (data : Word) : ActiveRequest :=
  match a.wait with
  | .layered image lanes =>
    match st with
    | .okay => { a with wait := .nothing }.tookWord false (some (image ||| keepLanes data lanes))
    | .fault => { a with wait := .nothing }.tookWord true (some image)
  | .nothing => a
  | .run => a

/-- LAYERED_READ_RESPONSE (R61, R63). -/
def execLayeredReadResponse (st : PortStatus) (data : Word) (s : State) : Result :=
  unlessReset s (hostAnswer .layered s (fun _ a t =>
    .next (afterAnswer (runHost (t.setActive (some (a.layeredAnswered st data)))))))

/-- OPENING_WRITE_RESPONSE: a FAULT marks the job faulted at the sequence word, and the job goes on (R104, R109). -/
def execOpeningWriteResponse (st : PortStatus) (s : State) : Result :=
  unlessReset s (jobAnswer .opening s (fun j t =>
    .next (afterAnswer (t.setRunning (some (j.noteAnswer st .sequenceWord))))))

/-- DATA_WRITE_RESPONSE: a FAULT marks the job faulted at the entry's offset, and the job goes on with the next entry
(R106, R109, R113). -/
def execDataWriteResponse (st : PortStatus) (s : State) : Result :=
  unlessReset s (jobAnswer .dataWrite s (fun j t =>
    .next (afterAnswer (t.setRunning (some
      { j.noteAnswer st (t.currentPosition j) with progress := j.progress + 1 })))))

/-- RELEASE_READ_RESPONSE: the word to write is the word read ANDed with the entry's word; on FAULT the release write is not
issued and the job goes on with the next pair (R111, R113). -/
def execReleaseReadResponse (st : PortStatus) (data : Word) (s : State) : Result :=
  unlessReset s (jobAnswer .releaseRead s (fun j t =>
    .next (afterAnswer (t.setRunning (some (match st with
      | .okay => { j with releaseData := some (data &&& (t.currentEntry j).elim 0 (fun e => e.data)) }
      | .fault => { j.noteAnswer st (t.currentPosition j) with progress := j.progress + 1, releaseData := none }))))))

/-- RELEASE_WRITE_RESPONSE: a FAULT is taken as a data-write fault, and the job goes on with the next pair (R111, R113). -/
def execReleaseWriteResponse (st : PortStatus) (s : State) : Result :=
  unlessReset s (jobAnswer .releaseWrite s (fun j t =>
    .next (afterAnswer (t.setRunning (some
      { j.noteAnswer st (t.currentPosition j) with progress := j.progress + 1, releaseData := none })))))

/-- CLOSING_WRITE_RESPONSE: the close ends and the completion is handed to the group (R108, R109).  During RESET_DEVICE the
answer is recorded and the job is abandoned like the others, without a completion (R120). -/
def execClosingWriteResponse (st : PortStatus) (s : State) : Result :=
  unlessReset s (jobAnswer .closing s (fun j t =>
    let k := j.noteAnswer st .sequenceWord
    .next (afterAnswer (if t.resetting.isSome then t.setRunning (some k) else closeJob k t))))

/-- A burst answered FAULT aborts the capture: the job leaves the running position, CAPTURE_FAULT is raised with the offset of
the burst's first word, and the failure is handed to the group (R115, R148). -/
def abortCapture (j : Job) (s : State) : State :=
  failCapture j ((s.setRunning none).raise (jobEvent .captureFault j.group j.epoch (detail j.progress)))

/-- CAPTURE_BURST_RESPONSE: the burst's words are placed in the back bank and the job issues its next burst or completes
(R114, R116); a FAULT aborts the capture (R115).  During RESET_DEVICE the job is abandoned all the same (R160). -/
def execCaptureBurstResponse (st : PortStatus) (data : List Word) (s : State) : Result :=
  unlessReset s (match s.outstanding .burst with
    | none => .fault .unexpectedResponse
    | some q =>
      jobAnswer .burst s (fun j t =>
        match st with
        | .okay =>
          if data.length = q.words.length then
            .next (afterAnswer ((placeBurst j.group data t).setRunning (some { j with progress := j.progress + data.length })))
          else .fault .malformedResponse
        | .fault => .next (afterAnswer (if t.resetting.isSome then t else abortCapture j t))))

/-- TORN_WRITE_RESPONSE: whatever the answer, the next TORN write is issued or the reset ends (R121, R199, R200). -/
def execTornWriteResponse (_st : PortStatus) (s : State) : Result :=
  unlessReset s (match s.outstanding .torn, s.resetting with
    | some _, some r =>
      .next (continueReset { r with torn := r.torn.tail } { s.setPort none with resetting := some { r with torn := r.torn.tail } })
    | _, _ => .fault .unexpectedResponse)

/-- The margin timer of the job runs: a BBM job whose margin has not expired (R110). -/
def Job.marginRuns (j : Job) (g : GroupNo) : Bool := decide (j.group = g) && j.bbm && !j.marginExpired

/-- The expiry is noted by a job whose timer runs (R112). -/
def Job.noteMargin (g : GroupNo) (j : Job) : Job := if j.marginRuns g then { j with marginExpired := true } else j

/-- The margin timer of the group's job expires (R112): the flag is set; a job on the margin list goes to the queue tail.  An
expiry of a timer that does not run does not happen (R110). -/
def marginExpired (g : GroupNo) (s : State) : State :=
  let e := s.engine
  s.setEngine
    { queue := e.queue.map (Job.noteMargin g) ++ (e.marginList.filter (fun j => j.marginRuns g)).map (Job.noteMargin g)
      running := e.running.map (Job.noteMargin g)
      marginList := e.marginList.filter (fun j => !j.marginRuns g) }

/-- MARGIN_EXPIRY of the group's BBM job (R112). -/
def execMarginExpiry (g : GroupNo) (s : State) : Result :=
  unlessReset s (.next (if s.engine.jobs.any (fun j => j.marginRuns g) then settle (marginExpired g s) else s))

end Sys2Proof.Machine
end

