-- ==== Sys2Proof/Machine/Link.lean ====
section
/-! DEFINITION. The management link: transfers, what becomes of a frame, and the device and event commands (chapters 8 and
9), with the meanings of TRANSFER_START, FRAME_TRUNCATED, FRAME_REFUSED, FRAME_DISCARDED, NOP, IDENTIFY, READ_DEVICE,
SET_EVENT_MASK and READ_EVENTS. -/

namespace Sys2Proof.Machine

/-- A frame ends, complete or cut short: the receive state holds its bytes, and no further frame is received before the next
assertion of MSEL (R176). -/
def State.frameEnds (r : Receive) (bytes : List Byte) (s : State) : State :=
  s.setLink { s.link with receive := r, received := bytes }

/-- A frame is discarded and counted (R181, R184). -/
def State.discardFrame (s : State) : State :=
  s.setLink { s.link with discarded := satSucc16 s.link.discarded }

/-- What becomes of a frame other than a NOP: no frame is received while the RESET input is asserted (R182), outside a select
period or after a complete frame in the same one (R174, R176); during RESET_DEVICE it is discarded and counted (R181);
otherwise it has its effect. -/
def takeFrame (r : Receive) (bytes : List Byte) (s : State) (effect : State → State) : Result :=
  unlessReset s
    (if s.link.receive = .receiving then
      if s.resetting.isSome then .next (s.frameEnds r bytes).discardFrame else .next (effect (s.frameEnds r bytes))
    else .next s)

/-- A complete command frame that executes (R183). -/
def takeCommand (i : Instr) (s : State) (effect : State → State) : Result :=
  takeFrame .complete (encodeFrame i) s effect

/-- TRANSFER_START: the receive state is cleared and the response buffer is copied into the transmit copy (R175, R176).
While the RESET input is asserted the link takes no byte, and the select period is ignored (R182). -/
def execTransferStart (s : State) : Result :=
  unlessReset s (.next (s.setLink { s.link with receive := .receiving, received := [], transmit := s.link.response }))

/-- FRAME_TRUNCATED (R178); during RESET_DEVICE the frame is discarded and counted (R181). -/
def execFrameTruncated (bytes : List Byte) (s : State) : Result :=
  if truncatedBytes bytes then takeFrame .closed bytes s (State.respond .truncated 0 []) else .fault .illFormed

/-- FRAME_REFUSED: the framing status of the first row of R179 that holds, with the tag as received. -/
def execFrameRefused (bytes : List Byte) (s : State) : Result :=
  match examineFrame bytes with
  | .refused st tag => takeFrame .complete bytes s (State.respond st tag [])
  | .incomplete => .fault .illFormed
  | .accepted _ => .fault .illFormed

/-- The receive state's condition after a discarded frame: closed when it was cut short, complete otherwise. -/
def receiveAfter (bytes : List Byte) : Receive :=
  if examineFrame bytes = .incomplete then .closed else .complete

/-- FRAME_DISCARDED: a frame other than a NOP that completes or is truncated during RESET_DEVICE (R181). -/
def execFrameDiscarded (bytes : List Byte) (s : State) : Result :=
  if discardableBytes bytes then
    if s.resetting.isSome || s.resetAsserted then takeFrame (receiveAfter bytes) bytes s id
    else .fault .frameNotDiscarded
  else .fault .illFormed

/-- NOP: nothing but the receive state changes, during RESET_DEVICE too (R180, R181). -/
def execNop (tag : Byte) (s : State) : Result :=
  unlessReset s
    (.next (if s.link.receive = .receiving then s.frameEnds .complete (encodeFrame (.nop tag)) else s))

/-- The five payload bytes of IDENTIFY (R185). -/
def identity : List Byte := bytes16 Config.vendorCode ++ bytes16 Config.partNumber ++ [Config.revision]

/-- IDENTIFY (R185). -/
def execIdentify (tag : Byte) (s : State) : Result :=
  takeCommand (.identify tag) s (State.respond .ok tag identity)

/-- A number as a two-byte field. -/
def numBytes16 (n : Nat) : List Byte := bytes16 (BitVec.ofNat 16 n)

/-- The eleven payload bytes of READ_DEVICE (R186). -/
def State.deviceReport (s : State) : List Byte :=
  numBytes16 s.freeStage ++ numBytes16 s.freeSafe ++ numBytes16 s.freeSnapshot
    ++ [BitVec.ofNat 8 s.events.records.length] ++ bytes16 s.events.dropCount ++ bytes16 s.link.discarded

/-- The effect of READ_DEVICE: the report, and the discarded-frame count becomes 0 after it is formed (R186). -/
def readDevice (tag : Byte) (s : State) : State :=
  let t := s.respond .ok tag s.deviceReport
  t.setLink { t.link with discarded := 0 }

/-- READ_DEVICE (R186). -/
def execReadDevice (tag : Byte) (s : State) : Result := takeCommand (.readDevice tag) s (readDevice tag)

/-- The effect of SET_EVENT_MASK: the whole kind mask is replaced (R170, R196). -/
def setEventMask (tag : Byte) (m : BitVec 16) (s : State) : State :=
  (s.setEvents { s.events with mask := m }).respond .ok tag []

/-- SET_EVENT_MASK (R170, R196). -/
def execSetEventMask (tag : Byte) (m : BitVec 16) (s : State) : Result :=
  takeCommand (.setEventMask tag m) s (setEventMask tag m)

/-- The payload of READ_EVENTS: the drop count, the number of records, the records oldest first (R197). -/
def EventQueue.report (q : EventQueue) (n : Nat) : List Byte :=
  bytes16 q.dropCount ++ [BitVec.ofNat 8 (q.records.take n).length] ++ (q.records.take n).flatMap EventRecord.bytes

/-- The effect of READ_EVENTS (R168, R197). -/
def readEvents (tag n : Byte) (s : State) : State :=
  if n = 0 ∨ Config.maxRecords < n.toNat then s.respond .badArgument tag []
  else (s.setEvents (s.events.remove n.toNat)).respond .ok tag (s.events.report n.toNat)

/-- READ_EVENTS (R168, R197). -/
def execReadEvents (tag n : Byte) (s : State) : Result := takeCommand (.readEvents tag n) s (readEvents tag n)

end Sys2Proof.Machine
end

