-- ==== Sys2Proof/Machine/SourceCommands.lean ====
section
/-! DEFINITION. The source commands: DEFINE_SOURCE, START_SOURCE, STOP_SOURCE, SKIP_EDGE, INSERT_EDGE and READ_SOURCE
(chapter 4, section 9.5). -/

namespace Sys2Proof.Machine

/-- A one-byte source number that names a source (section 9.5). -/
def sourceOfByte (n : Byte) : Option SourceNo := if h : n.toNat < 4 then some ⟨n.toNat, h⟩ else none

/-- A source command names its source first: a number above 3 answers BAD_ARGUMENT (section 9.5). -/
def withSource (tag n : Byte) (s : State) (k : SourceNo → State) : State :=
  match sourceOfByte n with
  | some m => k m
  | none => s.respond .badArgument tag []

/-- The unit a byte names (R187). -/
def unitOfByte (b : Byte) : Option TimeUnit :=
  if b = 0 then some .us1 else if b = 1 then some .us10 else if b = 2 then some .us100
  else if b = 3 then some .ms1 else none

/-- The kind fields checked in the order of R72, checks 3 to 6; none where one fails. -/
def checkSourceKind (n : SourceNo) (f : SourceFields) (s : State) : Option SourceKind :=
  if f.kind = 0 then
    if f.period ≠ 0 ∧ f.margin < f.period then some (.timer f.period) else none
  else if f.kind = 1 then
    if f.period ≠ 0 ∧ f.guard ≠ 0 then
      (sourceOfByte f.syncLine).map (fun l => .external f.period f.guard f.holdoverLimit l)
    else none
  else if f.kind = 2 then
    match sourceOfByte f.parent with
    | some p =>
      if p < n ∧ (s.source p).record.isSome ∧ 1 ≤ f.divisor.toNat ∧ f.divisor.toNat ≤ 256 then
        some (.divided p f.divisor.toNat)
      else none
    | none => none
  else none

/-- The record the fields make, by the checks 2 to 6 of R72; none where one fails, which answers BAD_ARGUMENT. -/
def checkSource (n : SourceNo) (f : SourceFields) (s : State) : Option SourceRecord :=
  match unitOfByte f.unit, checkSourceKind n f s with
  | some u, some k => some { unit := u, margin := f.margin, kind := k }
  | _, _ => none

/-- Two kinds are the same kind, whatever their fields (R72, check 7). -/
def SourceKind.same : SourceKind → SourceKind → Bool
  | .timer _, .timer _ => true
  | .external _ _ _ _, .external _ _ _ _ => true
  | .divided _ _, .divided _ _ => true
  | _, _ => false

/-- The running values of the kind as a start or a definition sets them, no timer running (R73, R75). -/
def Source.still (x : Source) : Source :=
  { x with lock := .await, holdover := 0, phase := 0, countdown := none, watch := none, standIn := none,
           absorbWindow := none }

/-- The countdown a TIMER source starts with; other kinds start no timer (R74, R75). -/
def SourceRecord.startCountdown (r : SourceRecord) : Option Nat :=
  match r.kind with
  | .timer p => some (r.duration p)
  | .external _ _ _ _ => none
  | .divided _ _ => none

/-- An accepted DEFINE_SOURCE on an UNDEFINED or STOPPED slot (R73). -/
def Source.defineStopped (x : Source) (r : SourceRecord) : Source :=
  { x.still with record := some r, running := false, epoch := 0, skip := false }

/-- An accepted DEFINE_SOURCE on a RUNNING source: its timers restart from the new record (R74). -/
def Source.redefine (x : Source) (r : SourceRecord) : Source :=
  { x.still with record := some r, countdown := r.startCountdown }

/-- The effect of DEFINE_SOURCE (R72 to R74, R187). -/
def defineSource (tag : Byte) (f : SourceFields) (s : State) : State :=
  withSource tag f.source s (fun n =>
    match checkSource n f s with
    | none => s.respond .badArgument tag []
    | some r =>
      let x := s.source n
      if x.running then
        if x.record.elim true (fun old => old.kind.same r.kind) then
          ((s.setSource n (x.redefine r)).voidChild n).respond .ok tag []
        else s.respond .wrongState tag []
      else ((s.setSource n (x.defineStopped r)).voidChild n).respond .ok tag [])

/-- DEFINE_SOURCE (R72 to R74, R187). -/
def execDefineSource (tag : Byte) (f : SourceFields) (s : State) : Result :=
  takeCommand (.defineSource tag f) s (defineSource tag f)

/-- START_SOURCE accepted: RUNNING from epoch number 0 (R75). -/
def Source.start (x : Source) (r : SourceRecord) : Source :=
  { x.still with running := true, epoch := 0, countdown := r.startCountdown }

/-- The effect of START_SOURCE (R75, R188). -/
def startSource (tag n : Byte) (s : State) : State :=
  withSource tag n s (fun m =>
    let x := s.source m
    match x.record, x.running with
    | some r, false => (s.setSource m (x.start r)).respond .ok tag []
    | _, _ => s.respond .wrongState tag [])

/-- START_SOURCE (R75, R188). -/
def execStartSource (tag n : Byte) (s : State) : Result := takeCommand (.startSource tag n) s (startSource tag n)

/-- STOP_SOURCE accepted: every timer stops and the skip flag is cleared; the rest keeps its values (R76). -/
def Source.stop (x : Source) : Source :=
  { x with running := false, skip := false, countdown := none, watch := none, standIn := none, absorbWindow := none }

/-- The effect of STOP_SOURCE (R76, R188).  Edges offered to a stopped child before are ignored (R80). -/
def stopSource (tag n : Byte) (s : State) : State :=
  withSource tag n s (fun m =>
    let x := s.source m
    if x.running then ((s.setSource m x.stop).voidChild m).respond .ok tag [] else s.respond .wrongState tag [])

/-- STOP_SOURCE (R76, R188). -/
def execStopSource (tag n : Byte) (s : State) : Result := takeCommand (.stopSource tag n) s (stopSource tag n)

/-- The effect of SKIP_EDGE (R91, R189). -/
def skipEdge (tag n cancel : Byte) (s : State) : State :=
  withSource tag n s (fun m =>
    let x := s.source m
    if cancel = 0 ∨ cancel = 1 then
      if x.running then (s.setSource m { x with skip := decide (cancel = 0) }).respond .ok tag []
      else s.respond .wrongState tag []
    else s.respond .badArgument tag [])

/-- SKIP_EDGE (R91, R189). -/
def execSkipEdge (tag n cancel : Byte) (s : State) : Result :=
  takeCommand (.skipEdge tag n cancel) s (skipEdge tag n cancel)

/-- What INSERT_EDGE does to the timers, by kind and sub-state (R93). -/
def Source.inserted (x : Source) (r : SourceRecord) : Source :=
  match r.kind with
  | .timer p => { x with countdown := some (r.duration p) }
  | .external p g _ _ =>
    match x.lock with
    | .locked => { x with watch := some (r.watchDuration p g) }
    | .holdover => { x with standIn := some (r.duration p) }
    | .await => x
    | .lost => x
  | .divided _ _ => { x with phase := 0 }

/-- The effect of INSERT_EDGE: an edge at once, a pending skip kept (R93, R188). -/
def insertEdge (tag n : Byte) (s : State) : State :=
  withSource tag n s (fun m =>
    let x := s.source m
    match x.record, x.running with
    | some r, true => (emitEdge m (s.setSource m (x.inserted r))).respond .ok tag []
    | _, _ => s.respond .wrongState tag [])

/-- INSERT_EDGE (R93, R188). -/
def execInsertEdge (tag n : Byte) (s : State) : Result := takeCommand (.insertEdge tag n) s (insertEdge tag n)

/-- The state byte of READ_SOURCE (R190). -/
def Source.stateByte (x : Source) : Byte :=
  if x.record.isNone then 0 else if x.running then 2 else 1

/-- The code of a lock sub-state (R190). -/
def LockState.code : LockState → Byte
  | .await => 0
  | .locked => 1
  | .holdover => 2
  | .lost => 3

/-- The lock sub-state byte of READ_SOURCE: 0xFF for a TIMER or DIVIDED source, 0 for an UNDEFINED slot (R190). -/
def Source.lockByte (x : Source) : Byte :=
  match x.record with
  | none => 0
  | some r =>
    match r.kind with
    | .external _ _ _ _ => x.lock.code
    | .timer _ => 0xFF
    | .divided _ _ => 0xFF

/-- The holdover count byte of READ_SOURCE: 0 for a kind other than EXTERNAL (R95, R190). -/
def Source.holdoverByte (x : Source) : Byte :=
  match x.record with
  | none => 0
  | some r =>
    match r.kind with
    | .external _ _ _ _ => x.holdover
    | .timer _ => 0
    | .divided _ _ => 0

/-- The phase count byte of READ_SOURCE: 0 for a kind other than DIVIDED (R95, R190). -/
def Source.phaseByte (x : Source) : Byte :=
  match x.record with
  | none => 0
  | some r =>
    match r.kind with
    | .divided _ _ => BitVec.ofNat 8 x.phase
    | .timer _ => 0
    | .external _ _ _ _ => 0

/-- The nine payload bytes of READ_SOURCE (R190). -/
def Source.report (x : Source) : List Byte :=
  [x.stateByte, x.lockByte] ++ bytes32 x.epoch ++ [x.holdoverByte, flagByte x.skip, x.phaseByte]

/-- The effect of READ_SOURCE (R95, R190). -/
def readSource (tag n : Byte) (s : State) : State :=
  withSource tag n s (fun m => s.respond .ok tag (s.source m).report)

/-- READ_SOURCE (R95, R190). -/
def execReadSource (tag n : Byte) (s : State) : Result := takeCommand (.readSource tag n) s (readSource tag n)

end Sys2Proof.Machine
end

