-- ==== Sys2Proof/Machine/GroupCommands.lean ====
section
/-! DEFINITION. The group commands: DEFINE_GROUP, DELETE_GROUP, ENABLE_GROUP, DISABLE_GROUP, RESUME_GROUP, LOAD_SAFE and
READ_GROUP (chapters 1, 6 and 7, section 9.6). -/

namespace Sys2Proof.Machine

/-- A one-byte group number that names a slot (section 9.6). -/
def groupOfByte (n : Byte) : Option GroupNo := if h : n.toNat < 32 then some ⟨n.toNat, h⟩ else none

/-- A group command names its group first: a number above 31 answers BAD_ARGUMENT (section 9.6). -/
def withGroup (tag n : Byte) (s : State) (k : GroupNo → State) : State :=
  match groupOfByte n with
  | some g => k g
  | none => s.respond .badArgument tag []

/-- A byte that holds a flag: 0 or 1 (R191). -/
def isFlag (b : Byte) : Bool := decide (b = 0) || decide (b = 1)

/-- Check 1 and 2 of R3: kind, length, source; base word-aligned and the whole range below 64 MB. -/
def rangeFieldsValid (f : GroupFields) : Bool :=
  (decide (f.kind = 0) || decide (f.kind = 1)) && decide (1 ≤ f.length.toNat) && decide (f.length.toNat ≤ 256)
    && decide (f.source.toNat < 4) && decide (f.base.toNat % 4 = 0)
    && decide (f.base.toNat + 4 * f.length.toNat ≤ Config.addressBytes)

/-- Checks 3 and 4 of R3 and the flag bytes of R191. -/
def kindFieldsValid (f : GroupFields) : Bool :=
  if f.kind = 0 then
    decide (f.sealOffset.toNat < f.length.toNat) && isFlag f.policy && isFlag f.seqPresent && isFlag f.bbm && isFlag f.latch
  else isFlag f.stampPresent && (decide (f.stampPresent = 0) || decide (f.stampOffset.toNat < f.length.toNat))

/-- The record the fields make (R2, R191).  The fields of the other kind are not stored. -/
def recordOfFields (f : GroupFields) : GroupRecord :=
  if f.kind = 0 then
    { kind := .output, base := f.base, length := f.length.toNat, source := Fin.ofNat 4 f.source.toNat
      sealOffset := f.sealOffset, seqAddr := if f.seqPresent = 1 then some f.seqAddr else none
      bbm := decide (f.bbm = 1), policy := if f.policy = 1 then .reject else .coalesce
      staleLimit := f.staleLimit, latch := decide (f.latch = 1), stampOffset := none, holdLimit := 0 }
  else
    { kind := .input, base := f.base, length := f.length.toNat, source := Fin.ofNat 4 f.source.toNat
      sealOffset := 0, seqAddr := none, bbm := false, policy := .coalesce, staleLimit := 0, latch := false
      stampOffset := if f.stampPresent = 1 then some f.stampOffset else none, holdLimit := f.holdLimit }

/-- Check 5 of R3: a present seq address is word-aligned, below 64 MB and outside the new range. -/
def GroupRecord.seqValid (r : GroupRecord) : Bool :=
  match r.seqAddr with
  | some a => decide (a.toNat % 4 = 0) && decide (a.toNat < Config.addressBytes) && !r.covers (a.toNat / 4)
  | none => true

/-- The two ranges share a word (R3, check 6). -/
def GroupRecord.overlaps (r q : GroupRecord) : Bool :=
  decide (r.baseWord < q.baseWord + q.length) && decide (q.baseWord < r.baseWord + r.length)

/-- Checks 6 to 8 of R3 against one other defined group's record. -/
def GroupRecord.clearOf (r q : GroupRecord) : Bool :=
  !r.overlaps q && !(q.seqWord.elim false r.covers) && !(r.seqWord.elim false q.covers)
    && (r.seqWord.isNone || decide (r.seqWord ≠ q.seqWord))

/-- Checks 6 to 8 of R3: against every defined slot but the one being defined. -/
def State.clearOfOthers (s : State) (g : GroupNo) (r : GroupRecord) : Bool :=
  (List.finRange 32).all (fun h =>
    decide (h = g) || match s.group h with
      | some y => r.clearOf y.record
      | none => true)

/-- The slot may be defined: UNDEFINED or DISABLED (R3). -/
def State.definable (s : State) (g : GroupNo) : Bool := (s.group g).elim true (fun x => !x.enabled)

/-- The safe entries the slot's group holds: they go back to the store (R136). -/
def State.slotSafeEntries (s : State) (g : GroupNo) : Nat := (s.group g).elim 0 Group.safeEntries

/-- The effect of DEFINE_GROUP (R3, R4, R136, R191). -/
def defineGroup (tag : Byte) (f : GroupFields) (s : State) : State :=
  withGroup tag f.group s (fun g =>
    if s.definable g then
      if rangeFieldsValid f && kindFieldsValid f && (recordOfFields f).seqValid && s.clearOfOthers g (recordOfFields f) then
        ((s.setGroup g (Group.defined (recordOfFields f))).setFreeSafe (s.freeSafe + s.slotSafeEntries g)).respond .ok tag []
      else s.respond .badArgument tag []
    else s.respond .wrongState tag [])

/-- DEFINE_GROUP (R3, R4, R191). -/
def execDefineGroup (tag : Byte) (f : GroupFields) (s : State) : Result :=
  takeCommand (.defineGroup tag f) s (defineGroup tag f)

/-- The effect of DELETE_GROUP (R5, R136, R192). -/
def deleteGroup (tag n : Byte) (s : State) : State :=
  withGroup tag n s (fun g =>
    match s.group g with
    | some x =>
      if x.enabled then s.respond .wrongState tag []
      else ((s.clearGroup g).setFreeSafe (s.freeSafe + x.safeEntries)).respond .ok tag []
    | none => s.respond .wrongState tag [])

/-- DELETE_GROUP (R5, R192). -/
def execDeleteGroup (tag n : Byte) (s : State) : Result := takeCommand (.deleteGroup tag n) s (deleteGroup tag n)

/-- An output group on entry to LIVE (R27). -/
def Group.enableOutput (x : Group) : Group :=
  { x with state := .live, filling := none, armed := none, committing := none, seqCount := 0, staleCount := 0,
           coalesced := 0, rejected := 0, damaged := 0, behind := 0, pendingSafe := false }

/-- An input group on entry to LIVE (R141). -/
def Group.enableInput (x : Group) : Group :=
  { x with state := .live, front := none, back := .idle, captureInFlight := false, held := false, holdCount := 0 }

/-- The effect of ENABLE_GROUP (R27, R141, R192): the state check, then for an input group the space check; and no host write that has
not been issued reaches an output group once it is enabled. -/
def enableGroup (tag n : Byte) (s : State) : State :=
  withGroup tag n s (fun g =>
    match s.group g with
    | some x =>
      if x.enabled then s.respond .wrongState tag []
      else
        match x.record.kind with
        | .output => withdrawRun x.record ((s.setGroup g x.enableOutput).respond .ok tag [])
        | .input =>
          if s.enabledInputWords + x.record.length ≤ Config.inputWords then
            ((s.setGroup g x.enableInput).setFreeSnapshot (s.freeSnapshot - 2 * x.record.length)).respond .ok tag []
          else s.respond .noSpace tag []
    | none => s.respond .wrongState tag [])

/-- ENABLE_GROUP (R27, R141, R192). -/
def execEnableGroup (tag n : Byte) (s : State) : Result := takeCommand (.enableGroup tag n) s (enableGroup tag n)

/-- DISABLE_GROUP on an output group in LIVE or SAFE (R28, R42). -/
def disableOutput (tag : Byte) (g : GroupNo) (x : Group) (s : State) : State :=
  let y := { x with filling := none, armed := none, pendingSafe := false }
  let t := s.returnStage ((x.filling.elim 0 (fun f => f.entries.length)) + x.armed.elim 0 List.length)
  if x.jobInFlight then (t.setGroup g { y with state := .draining }).respond .pending tag []
  else (becomeDisabled g y t).respond .ok tag []

/-- DISABLE_GROUP on an input group in LIVE (R154). -/
def disableInput (tag : Byte) (g : GroupNo) (x : Group) (s : State) : State :=
  if x.captureInFlight then
    (s.setGroup g { x with state := .draining, back := match x.back with
      | .pending _ => .idle
      | .idle => .idle
      | .filling ws => .filling ws }).respond .pending tag []
  else
    ((becomeDisabled g { x with front := none, back := .idle, held := false } s).setFreeSnapshot
      (s.freeSnapshot + 2 * x.record.length)).respond .ok tag []

/-- The effect of DISABLE_GROUP (R28, R154, R193). -/
def disableGroup (tag n : Byte) (s : State) : State :=
  withGroup tag n s (fun g =>
    match s.group g with
    | some x =>
      match x.state, x.record.kind with
      | .disabled, _ => s.respond .wrongState tag []
      | .draining, _ => s.respond .pending tag []
      | .live, .output => disableOutput tag g x s
      | .safe, .output => disableOutput tag g x s
      | .live, .input => disableInput tag g x s
      | .safe, .input => disableInput tag g x s
    | none => s.respond .wrongState tag [])

/-- DISABLE_GROUP (R28, R154, R193). -/
def execDisableGroup (tag n : Byte) (s : State) : Result := takeCommand (.disableGroup tag n) s (disableGroup tag n)

/-- The effect of RESUME_GROUP (R131, R193). -/
def resumeGroup (tag n : Byte) (s : State) : State :=
  withGroup tag n s (fun g =>
    match s.group g with
    | some x =>
      if x.state = .safe ∧ x.record.kind = .output then
        (s.setGroup g { x with state := .live, staleCount := 0, pendingSafe := false }).respond .ok tag []
      else s.respond .wrongState tag []
    | none => s.respond .wrongState tag [])

/-- RESUME_GROUP (R131, R193). -/
def execResumeGroup (tag n : Byte) (s : State) : Result := takeCommand (.resumeGroup tag n) s (resumeGroup tag n)

/-- The safe image a LOAD_SAFE makes: from an empty image with the first flag, else from the image as it stands (R135). -/
def loadedImage (x : Group) (first : Byte) (loads : List SafeEntry) : List SafeEntry :=
  applyLoads (if first = 1 then [] else x.safeImage.getD []) loads

/-- The checks 2 to 6 of R134, then the effects of R135. -/
def loadSafeInto (tag : Byte) (g : GroupNo) (first : Byte) (loads : List SafeEntry) (s : State) : State :=
  match s.group g with
  | none => s.respond .wrongState tag []
  | some x =>
    if x.record.kind = .input then s.respond .badArgument tag []
    else if x.enabled then s.respond .wrongState tag []
    else if loads.any (fun l => decide (x.record.length ≤ l.offset.toNat)) then s.respond .badArgument tag []
    else if (loadedImage x first loads).length ≤ s.freeSafe + x.safeEntries then
      ((s.setGroup g { x with safeImage := some (loadedImage x first loads) }).setFreeSafe
        (s.freeSafe + x.safeEntries - (loadedImage x first loads).length)).respond .ok tag []
    else s.respond .noSpace tag []

/-- The effect of LOAD_SAFE (R134, R135, R194): the group number and the first flag are check 1. -/
def loadSafe (tag n first : Byte) (loads : List SafeEntry) (s : State) : State :=
  withGroup tag n s (fun g =>
    if isFlag first then loadSafeInto tag g first loads s else s.respond .badArgument tag [])

/-- LOAD_SAFE (R134, R135, R194).  No frame carries more than 49 loads. -/
def execLoadSafe (tag n first : Byte) (loads : List SafeEntry) (s : State) : Result :=
  if loads.length ≤ Config.maxLoads then
    takeCommand (.loadSafe tag n first loads) s (loadSafe tag n first loads)
  else .fault .illFormed

/-- The state byte of READ_GROUP (R195). -/
def GroupState.code : GroupState → Byte
  | .disabled => 1
  | .live => 2
  | .safe => 3
  | .draining => 4

/-- The entries of a committing slot as READ_GROUP counts them: a reference to the safe image counts that image's entries
(R9). -/
def Group.committingEntries (x : Group) : Nat := x.jobImage.length

/-- Fields 3 to 12 of READ_GROUP for an output group (R9, R30, R123, R195). -/
def Group.outputReport (x : Group) : List Byte :=
  numBytes16 (x.filling.elim 0 (fun f => f.entries.length)) ++ numBytes16 (x.armed.elim 0 List.length)
    ++ numBytes16 x.committingEntries ++ [flagByte (x.filling.elim false Filling.damaged), x.staleCount]
    ++ bytes32 (x.seqCount.setWidth 32) ++ bytes16 x.coalesced ++ bytes16 x.rejected ++ bytes16 x.damaged
    ++ bytes16 x.behind

/-- The back bank is PENDING (R139). -/
def BackBank.isPending : BackBank → Bool
  | .pending _ => true
  | .idle => false
  | .filling _ => false

/-- Fields 13 to 17 of READ_GROUP for an input group (R157, R195). -/
def Group.inputReport (x : Group) : List Byte :=
  bytes32 (x.front.elim 0 Bank.epoch)
    ++ [flagByte x.front.isNone, flagByte x.held, flagByte x.back.isPending, x.holdCount]

/-- The thirty payload bytes of READ_GROUP (R195): for each kind the other kind's fields read 0, and an UNDEFINED slot
reports every field as 0. -/
def groupReport (o : Option Group) : List Byte :=
  match o with
  | none => List.replicate 30 0
  | some x =>
    match x.record.kind with
    | .output => [x.state.code, 0] ++ x.outputReport ++ List.replicate 8 0
    | .input => [x.state.code, 1] ++ List.replicate 20 0 ++ x.inputReport

/-- The effect of READ_GROUP (R195). -/
def readGroup (tag n : Byte) (s : State) : State :=
  withGroup tag n s (fun g => s.respond .ok tag (groupReport (s.group g)))

/-- READ_GROUP (R9, R157, R195). -/
def execReadGroup (tag n : Byte) (s : State) : Result := takeCommand (.readGroup tag n) s (readGroup tag n)

end Sys2Proof.Machine
end

