-- ==== Sys2Proof/Machine/Reset.lean ====
section
/-! DEFINITION. The three resets: POWER_ON, RESET_ASSERT and RESET_DEVICE (R1, R70, R122, R172, R182, R198 to R200). -/

namespace Sys2Proof.Machine

/-- POWER_ON: every block holds the values of its power-on rule, whatever it held before (R1).  The commands that wait are
the sender's, and stay. -/
def execPowerOn (s : State) : Result := .next { State.reset with pending := s.pending }

/-- RESET_ASSERT: the host request in progress is dropped without a response (R70), the engine's jobs and the outstanding
memory request are gone (R70, R122), RESET_DEVICE is no longer under execution (R200), ALERT is driven low (R172), and the
transfer in progress is abandoned (R182). -/
def execResetAssert (s : State) : Result :=
  .next { s with
    resetAsserted := true
    engine := Engine.empty
    streak := 0
    port := none
    host := { s.host with active := none, waiting := [] }
    events := { s.events with alert := false }
    link := { s.link with receive := .closed, received := [] }
    resetting := none }

/-- The deliveries of one edge, those to groups first, in order. -/
def takeEdge (s : State) (e : Edge) : State :=
  e.children.foldl (fun t o => if o.void then t else parentEdge o.child t)
    (e.groups.foldl (fun t o => if o.void then t else settle (edgeToGroup o.group e.source e.epoch t)) s)

/-- Every delivery that waits is taken; the edges that children emit in consequence wait in their turn. -/
def takeEdges (s : State) : State := s.edges.foldl takeEdge (s.setEdges [])

/-- The edges emitted before a RESET_DEVICE are taken by the groups before the reset (R33, R98): a child has a higher number
than its parent, so four rounds take the deliveries of every chain.  DESIGN CHOICE: their order (log 11). -/
def takeAllEdges (s : State) : State := (takeEdges (takeEdges (takeEdges (takeEdges s)))).setEdges []

/-- A RUNNING or STOPPED source at the start of RESET_DEVICE: STOPPED with the values of R98; an UNDEFINED slot stays as it
is. -/
def Source.reset (x : Source) : Source :=
  if x.record.isSome then { x.still with running := false, epoch := 0, skip := false, line := false } else x

/-- A request that stands between two words with its run open: the run is not added to any more, and is issued when the reset ends,
before any further word is taken (R55, R69). -/
def ActiveRequest.closeRun (a : ActiveRequest) : ActiveRequest :=
  if a.wait = .nothing ∧ a.run ≠ [] then { a with wait := .run } else a

/-- The effects that are in place from the beginning of the reset (R198). -/
def beginReset (tag : Byte) (s : State) : State :=
  { (s.respond .notReady tag []) with
    sources := s.sources.map Source.reset
    events := s.events.clear
    host := { s.host with active := s.host.active.map ActiveRequest.closeRun }
    resetting := some { tag := tag, abandoned := false, torn := [] } }

/-- The effect of RESET_DEVICE: the reset begins, and with no memory request in progress the abandonment follows at once
(R198, R199). -/
def resetDevice (tag : Byte) (s : State) : State :=
  let t := beginReset tag (takeAllEdges s)
  if t.port.isSome then t else abandon { tag := tag, abandoned := false, torn := [] } t

/-- RESET_DEVICE (R198). -/
def execResetDevice (tag : Byte) (s : State) : Result := takeCommand (.resetDevice tag) s (resetDevice tag)

end Sys2Proof.Machine
end

