-- ==== Sys2Proof/Machine/Dispatch.lean ====
section
/-! DEFINITION. The meaning of every command: one arm for each row of spec/opcode_table.json. -/

namespace Sys2Proof.Machine

def exec (i : Instr) (s : State) : Host.Outcome State Fault Refusal :=
  match i with
  | .powerOn => Sys2Proof.Machine.execPowerOn s
  | .resetAssert => Sys2Proof.Machine.execResetAssert s
  | .hostRequest request => Sys2Proof.Machine.execHostRequest request s
  | .runResponse status data => Sys2Proof.Machine.execRunResponse status data s
  | .layeredReadResponse status data => Sys2Proof.Machine.execLayeredReadResponse status data s
  | .timerExpiry source => Sys2Proof.Machine.execTimerExpiry source s
  | .syncRisingEdge line => Sys2Proof.Machine.execSyncRisingEdge line s
  | .watchExpiry source => Sys2Proof.Machine.execWatchExpiry source s
  | .standInExpiry source => Sys2Proof.Machine.execStandInExpiry source s
  | .absorbWindowClose source => Sys2Proof.Machine.execAbsorbWindowClose source s
  | .edgeDelivery source group => Sys2Proof.Machine.execEdgeDelivery source group s
  | .parentEdgeDelivery parent child => Sys2Proof.Machine.execParentEdgeDelivery parent child s
  | .openingWriteResponse status => Sys2Proof.Machine.execOpeningWriteResponse status s
  | .dataWriteResponse status => Sys2Proof.Machine.execDataWriteResponse status s
  | .releaseReadResponse status data => Sys2Proof.Machine.execReleaseReadResponse status data s
  | .releaseWriteResponse status => Sys2Proof.Machine.execReleaseWriteResponse status s
  | .marginExpiry group => Sys2Proof.Machine.execMarginExpiry group s
  | .closingWriteResponse status => Sys2Proof.Machine.execClosingWriteResponse status s
  | .captureBurstResponse status data => Sys2Proof.Machine.execCaptureBurstResponse status data s
  | .transferStart => Sys2Proof.Machine.execTransferStart s
  | .frameTruncated bytes => Sys2Proof.Machine.execFrameTruncated bytes s
  | .frameRefused bytes => Sys2Proof.Machine.execFrameRefused bytes s
  | .frameDiscarded bytes => Sys2Proof.Machine.execFrameDiscarded bytes s
  | .nop tag => Sys2Proof.Machine.execNop tag s
  | .identify tag => Sys2Proof.Machine.execIdentify tag s
  | .readDevice tag => Sys2Proof.Machine.execReadDevice tag s
  | .resetDevice tag => Sys2Proof.Machine.execResetDevice tag s
  | .tornWriteResponse status => Sys2Proof.Machine.execTornWriteResponse status s
  | .defineSource tag fields => Sys2Proof.Machine.execDefineSource tag fields s
  | .startSource tag source => Sys2Proof.Machine.execStartSource tag source s
  | .stopSource tag source => Sys2Proof.Machine.execStopSource tag source s
  | .skipEdge tag source cancel => Sys2Proof.Machine.execSkipEdge tag source cancel s
  | .insertEdge tag source => Sys2Proof.Machine.execInsertEdge tag source s
  | .readSource tag source => Sys2Proof.Machine.execReadSource tag source s
  | .defineGroup tag fields => Sys2Proof.Machine.execDefineGroup tag fields s
  | .deleteGroup tag group => Sys2Proof.Machine.execDeleteGroup tag group s
  | .enableGroup tag group => Sys2Proof.Machine.execEnableGroup tag group s
  | .disableGroup tag group => Sys2Proof.Machine.execDisableGroup tag group s
  | .resumeGroup tag group => Sys2Proof.Machine.execResumeGroup tag group s
  | .loadSafe tag group first loads => Sys2Proof.Machine.execLoadSafe tag group first loads s
  | .readGroup tag group => Sys2Proof.Machine.execReadGroup tag group s
  | .setEventMask tag mask => Sys2Proof.Machine.execSetEventMask tag mask s
  | .readEvents tag count => Sys2Proof.Machine.execReadEvents tag count s

end Sys2Proof.Machine
end

