-- ==== Sys2Proof/Safety.lean ====
section
/-! DEFINITION. What the spec says always holds of the part: its accounting laws and its laws of the device, in the terms the
statements use. -/

namespace Sys2Proof.Safety

open Sys2Proof.Machine

/-- The stage entries held by the images of all groups (R34). -/
def heldStage (s : State) : Nat := (s.groups.toList.map (fun o => o.elim 0 Group.stageEntries)).sum

/-- The law of the stage pool: free and held entries are always 4096 (R34). -/
abbrev PoolLaw (s : State) : Prop := s.freeStage + heldStage s = Config.stageEntries

/-- Which image slots a group may hold: none in DISABLED (R7), no filling and no armed image in DRAINING (R29), and none in an
input group (chapter 7). -/
abbrev SlotsOfState (x : Group) : Prop :=
  (x.state = .disabled → x.filling = none ∧ x.armed = none ∧ x.committing = none) ∧
  (x.state = .draining → x.filling = none ∧ x.armed = none) ∧
  (x.record.kind = .input → x.filling = none ∧ x.armed = none ∧ x.committing = none)

/-- The pool's law together with the slots each state allows. -/
abbrev PoolInv (s : State) : Prop := PoolLaw s ∧ ∀ g : GroupNo, ∀ x ∈ s.group g, SlotsOfState x

/-- The safe entries held by the safe images of all groups (R132). -/
def heldSafe (s : State) : Nat := (s.groups.toList.map (fun o => o.elim 0 Group.safeEntries)).sum

/-- The law of the safe store: free and held entries are always 1024 (R132). -/
abbrev SafeStoreLaw (s : State) : Prop := s.freeSafe + heldSafe s = Config.safeEntries

/-- The law of the snapshot store: the free words are 2048 minus twice the length of the enabled input groups (R140). -/
abbrev SnapshotLaw (s : State) : Prop := s.freeSnapshot + 2 * s.enabledInputWords = Config.snapshotWords

/-- The event queue holds at most 64 records (R164), and ALERT is high while it holds one or the drop count is above 0,
but low while the RESET input is asserted (R171, R172). -/
abbrev EventLaw (s : State) : Prop :=
  s.events.records.length ≤ Config.eventSlots ∧
  (s.events.alert = true ↔ s.resetAsserted = false ∧ (s.events.records ≠ [] ∨ s.events.dropCount ≠ 0))

/-- The fields of a stored record keep the bounds of R2 that DEFINE_GROUP checks (R3, checks 1 to 4): the range is word-aligned
and lies below 64 MB, the length is 1 to 256, and the seal word or the stamp word lies within the range. -/
abbrev RecordOk (r : GroupRecord) : Prop :=
  r.base.toNat % 4 = 0 ∧ 1 ≤ r.length ∧ r.length ≤ 256 ∧ r.base.toNat + 4 * r.length ≤ Config.addressBytes ∧
  (r.kind = .output → r.sealOffset.toNat < r.length) ∧
  (r.kind = .input → ∀ o ∈ r.stampOffset, o.toNat < r.length)

/-- Every record is within bounds, the ranges of defined groups never overlap, no group's sequence word lies in any defined
group's range, and no two groups share a sequence word (R3, R53). -/
abbrev RangeLaw (s : State) : Prop :=
  (∀ g : GroupNo, ∀ x ∈ s.group g, RecordOk x.record ∧ x.record.seqValid = true) ∧
  ∀ g h : GroupNo, g ≠ h → ∀ x ∈ s.group g, ∀ y ∈ s.group h, x.record.clearOf y.record = true

/-- An image holds no two entries with the same offset, every offset is below the group's length, and every lane mask is
not empty (R8, R35). -/
abbrev ImageOk (length : Nat) (img : Image) : Prop :=
  (img.map Entry.offset).Nodup ∧ ∀ e ∈ img, e.offset.toNat < length ∧ e.lanes ≠ 0

/-- The images of every group keep the law of R8, and so do the safe images (R133). -/
abbrev ImageLaw (s : State) : Prop :=
  ∀ g : GroupNo, ∀ x ∈ s.group g,
    (∀ f ∈ x.filling, ImageOk x.record.length f.entries) ∧
    (∀ i ∈ x.armed, ImageOk x.record.length i) ∧
    (∀ c ∈ x.committing, match c with
      | .commit i => ImageOk x.record.length i
      | .safe => True) ∧
    (∀ l ∈ x.safeImage, (l.map SafeEntry.offset).Nodup ∧ ∀ e ∈ l, e.offset.toNat < x.record.length)

/-- An output group's stale count never exceeds its stale limit; in LIVE it is below the limit unless stale counting is off,
and throughout SAFE it stands at the limit, which is then not 0 (R123, R124). -/
abbrev StaleLaw (s : State) : Prop :=
  ∀ g : GroupNo, ∀ x ∈ s.group g, x.record.kind = .output →
    x.staleCount ≤ x.record.staleLimit ∧
    (x.state = .live → x.record.staleLimit = 0 ∨ x.staleCount < x.record.staleLimit) ∧
    (x.state = .safe → x.record.staleLimit ≠ 0 ∧ x.staleCount = x.record.staleLimit)

/-- A job belongs to an enabled group whose slot says so: a COMMIT or SAFE job to an output group whose committing slot
holds its image and whose seq count is one below the job's count (R7, R99, R100), a CAPTURE job to an input group with a
capture in flight (R139); and the phase of a job is CAPTURE exactly when its kind is (R99). -/
abbrev JobMatches (s : State) (j : Job) : Prop :=
  (j.kind = .capture ↔ j.phase = .capture) ∧
  ∃ x ∈ s.group j.group, x.state ≠ .disabled ∧
    match j.kind with
    | .commit => x.record.kind = .output ∧ (∃ i ∈ x.committing, i ≠ .safe) ∧ j.count = x.seqCount + 1
    | .safe => x.record.kind = .output ∧ x.committing = some .safe ∧ j.count = x.seqCount + 1
    | .capture => x.record.kind = .input ∧ x.captureInFlight = true

/-- The outstanding request of the engine is one of its running job: a burst of a CAPTURE job, any other of a COMMIT or SAFE
job (R103, R118).  A TORN write belongs to no job (R121). -/
abbrev PortMatches (s : State) : Prop :=
  ∀ u ∈ s.port,
    match u.purpose with
    | .burst => ∃ j ∈ s.engine.running, j.kind = .capture
    | .opening | .dataWrite | .releaseRead | .releaseWrite | .closing => ∃ j ∈ s.engine.running, j.kind ≠ .capture
    | .run | .layered | .torn => True

/-- The engine holds at most one job for any group, every job belongs to its group's slot, every committing slot and every
capture in flight has its job in the engine, and the outstanding request belongs to the running job (R7, R101, R103, R139).
Nothing is claimed while the RESET input is asserted. -/
abbrev EngineLaw (s : State) : Prop :=
  s.resetAsserted = false →
    (s.engine.jobs.map Job.group).Nodup ∧
    (∀ j ∈ s.engine.jobs, JobMatches s j) ∧
    (∀ g : GroupNo, ∀ x ∈ s.group g,
      (x.committing.isSome = true → ∃ j ∈ s.engine.jobs, j.group = g ∧ j.kind ≠ .capture) ∧
      (x.captureInFlight = true → ∃ j ∈ s.engine.jobs, j.group = g ∧ j.kind = .capture)) ∧
    PortMatches s

/-- The relations of R139 between the snapshot items of an input group, and what R157 reports of a DISABLED one: in LIVE the
back bank is PENDING only while the group is held, in DRAINING it never is, and a DISABLED group has no front bank, no PENDING
bank and no hold.  An input group is never SAFE (R138). -/
abbrev HoldLaw (s : State) : Prop :=
  ∀ g : GroupNo, ∀ x ∈ s.group g, x.record.kind = .input →
    x.state ≠ .safe ∧
    (x.state = .live → x.back.isPending = true → x.held = true) ∧
    (x.state = .draining → x.back.isPending = false) ∧
    (x.state = .disabled → x.front = none ∧ x.back.isPending = false ∧ x.held = false)

/-- The banks of input groups and the captures that fill them (R114, R139, R145, R146): a front bank and a PENDING back bank
hold a whole range of words; a CAPTURE job that waits has read nothing; a running one has placed as many words in the FILLING
back bank as its progress says, and its outstanding burst is the one R114 gives; and a back bank is FILLING only while its
group's capture runs. -/
abbrev BankLaw (s : State) : Prop :=
  (∀ g : GroupNo, ∀ x ∈ s.group g, x.record.kind = .input →
    (∀ b ∈ x.front, b.words.length = x.record.length) ∧
    (match x.back with
      | .idle => True
      | .pending b => b.words.length = x.record.length
      | .filling _ => s.resetAsserted = false → ∃ j ∈ s.engine.running, j.kind = .capture ∧ j.group = g)) ∧
  (∀ j ∈ s.engine.queue ++ s.engine.marginList, j.kind = .capture → j.progress = 0) ∧
  (∀ j ∈ s.engine.running, j.kind = .capture → ∃ x ∈ s.group j.group, (∃ ws, x.back = .filling ws ∧ ws.length = j.progress) ∧
    j.progress ≤ x.record.length) ∧
  (∀ u ∈ s.port, u.purpose = .burst → ∀ j ∈ s.engine.running, ∀ x ∈ s.group j.group,
    u.request = burstRequest x j.progress)

/-- The host path (R49, R51, R55, R56): a request has at most 16 words, the open run is a part of the words taken, a read has
one data word for each word taken and answered, a layered read is asked for on its own, the outstanding request of the host path
is the one it waits for, and outside a reset the path stands still only while it waits for the memory port or stands at a gap
(log 8). -/
abbrev HostLaw (s : State) : Prop :=
  (∀ r ∈ s.host.waiting, r.words.length ≤ Config.burstWords) ∧
  (∀ a ∈ s.host.active,
    a.request.words.length ≤ Config.burstWords ∧ a.taken ≤ a.request.words.length ∧ a.run.length ≤ a.taken ∧
    (a.request.dir = .read → a.data.length + a.run.length = a.taken) ∧ (a.request.dir = .write → a.data = []) ∧
    (match a.wait with
      | .nothing => s.resetting.isSome = true ∨ a.taken ∈ a.gaps
      | .run => a.run ≠ []
      | .layered _ _ => a.run = [] ∧ a.taken < a.request.words.length ∧ a.request.dir = .read)) ∧
  (s.host.active = none → s.resetting = none → s.host.waiting = []) ∧
  (∀ u ∈ s.port,
    (u.purpose = .run → ∃ a ∈ s.host.active, a.wait = .run ∧ u.request = a.runRequest) ∧
    (u.purpose = .layered → ∃ a ∈ s.host.active, a.wait ≠ .run ∧ a.wait ≠ .nothing))

/-- No word of a write run that has not been issued lies in an enabled output group's range or is its sequence word (R27, R58,
R207). -/
abbrev RunLaw (s : State) : Prop :=
  ∀ a ∈ s.host.active, a.request.dir = .write → (∀ u ∈ s.port, u.purpose ≠ .run) → ∀ k, k < a.run.length →
    ∀ g : GroupNo, ∀ x ∈ s.group g, x.record.kind = .output → x.state ≠ .disabled →
      x.record.touches (a.runAddr k).toNat = false

/-- A response has at most 228 payload bytes, and none unless its status is OK (R182, R202). -/
abbrev ResponseOk (r : Response) : Prop := r.payload.length ≤ 228 ∧ (r.status ≠ .ok → r.payload = [])

/-- The response buffer and the transmit copy hold such a response (R175, R182). -/
abbrev ResponseLaw (s : State) : Prop := ResponseOk s.link.response ∧ ResponseOk s.link.transmit

/-- The arbiter's streak is 0 to 8 (R118). -/
abbrev StreakLaw (s : State) : Prop := s.streak ≤ Config.streakLimit

/-- A source that is not RUNNING runs no timer and has no skip pending (R73, R75, R76, R91, R97), and only a slot that
holds a record is RUNNING. -/
abbrev SourceLaw (s : State) : Prop :=
  ∀ n : SourceNo,
    ((s.source n).running = false →
      (s.source n).skip = false ∧ (s.source n).countdown = none ∧ (s.source n).watch = none ∧
      (s.source n).standIn = none ∧ (s.source n).absorbWindow = none) ∧
    ((s.source n).record = none → (s.source n).running = false)

/-- The timers of a RUNNING source are those of its kind and sub-state (R81, R83 to R88): a TIMER source has its countdown
alone; an EXTERNAL source has its watch in LOCKED, its stand-in timer in HOLDOVER, beside which only there an absorb window
may be open, and no timer in AWAIT or LOST; a DIVIDED source has no timer, and its phase count is below its divisor (R90). -/
abbrev TimerLaw (s : State) : Prop :=
  ∀ n : SourceNo, (s.source n).running = true → ∀ r ∈ (s.source n).record,
    match r.kind with
    | .timer p =>
      (s.source n).countdown = some (r.duration p) ∧ (s.source n).watch = none ∧ (s.source n).standIn = none ∧
      (s.source n).absorbWindow = none
    | .external p g _ _ =>
      (s.source n).countdown = none ∧
      match (s.source n).lock with
      | .await =>
        (s.source n).watch = none ∧ (s.source n).standIn = none ∧ (s.source n).absorbWindow = none
      | .locked =>
        (s.source n).watch = some (r.watchDuration p g) ∧ (s.source n).standIn = none ∧ (s.source n).absorbWindow = none
      | .holdover => (s.source n).watch = none ∧ (s.source n).standIn = some (r.duration p)
      | .lost =>
        (s.source n).watch = none ∧ (s.source n).standIn = none ∧ (s.source n).absorbWindow = none
    | .divided _ d =>
      (s.source n).countdown = none ∧ (s.source n).watch = none ∧ (s.source n).standIn = none ∧
      (s.source n).absorbWindow = none ∧ (s.source n).phase < d

/-- The divisor of a DIVIDED source is 1 to 256, and its parent has a lower number (R71, R72). -/
abbrev ParentLaw (s : State) : Prop :=
  ∀ n : SourceNo, ∀ r ∈ (s.source n).record,
    match r.kind with
    | .timer _ => True
    | .external _ _ _ _ => True
    | .divided p d => p < n ∧ 1 ≤ d ∧ d ≤ 256

/-! ## The words the statements use -/

/-- The host path is free to take a request: no reset, nothing inside it, nothing held off (R49, R69). -/
abbrev HostIdle (s : State) : Prop :=
  s.resetAsserted = false ∧ s.resetting = none ∧ s.host.active = none ∧ s.host.waiting = []

/-- The link examines the frame that completes now: no reset, and a select period in which no frame has completed (R176,
R179, R181). -/
abbrev LinkReady (s : State) : Prop :=
  s.resetAsserted = false ∧ s.resetting = none ∧ s.link.receive = .receiving

/-- The state in which the frame of a command has been received and answered, and nothing else has changed (R176, R183). -/
def answered (i : Instr) (status : Status) (tag : Byte) (payload : List Byte) (s : State) : State :=
  { s with link := { s.link with
      receive := .complete, received := encodeFrame i, response := { status := status, tag := tag, payload := payload } } }

/-- The state in which the host's request has been answered, and nothing else has changed (R49, R56). -/
def hostAnswered (status : PortStatus) (data : List Word) (s : State) : State :=
  { s with host := { s.host with
      active := none, responses := s.host.responses ++ [{ status := status, data := data }] } }

/-- A request of one word with no gap.  (The statement LastAnswerEndsTheRequest says what gaps and further words do.) -/
abbrev oneWord (d : Dir) (a : WordAddr) (w : PortWord) : HostRequest := ⟨⟨d, a, [w]⟩, [], []⟩

/-- The state with this request inside the host path. -/
def withRequest (a : ActiveRequest) (s : State) : State := { s with host := { s.host with active := some a } }

/-- The host path goes on with this request (R55): it stands if it is at a gap, and otherwise takes on as it does when the request
has stood at a gap there and no command waits. -/
def goesOn (a : ActiveRequest) (s : State) : State :=
  if a.taken ∈ a.gaps then settle (withRequest a s) else tick (withRequest { a with gaps := a.taken :: a.gaps } s)

/-- A response command answers what the part asked: the request it names is outstanding, with its owner, and an OKAY read
answer has one data word for each word (R51); and a frame is discarded only while RESET_DEVICE executes (R181).  Of the other
commands nothing is asked. -/
def AnswerDue (i : Instr) (s : State) : Prop :=
  match i with
  | .runResponse st data => ∃ q, s.port = some ⟨.run, q⟩ ∧ s.host.active ≠ none ∧
      (st = .okay → q.dir = .read → data.length = q.words.length)
  | .layeredReadResponse _ _ => ∃ q, s.port = some ⟨.layered, q⟩ ∧ s.host.active ≠ none
  | .openingWriteResponse _ => ∃ q, s.port = some ⟨.opening, q⟩ ∧ s.engine.running ≠ none
  | .dataWriteResponse _ => ∃ q, s.port = some ⟨.dataWrite, q⟩ ∧ s.engine.running ≠ none
  | .releaseReadResponse _ _ => ∃ q, s.port = some ⟨.releaseRead, q⟩ ∧ s.engine.running ≠ none
  | .releaseWriteResponse _ => ∃ q, s.port = some ⟨.releaseWrite, q⟩ ∧ s.engine.running ≠ none
  | .closingWriteResponse _ => ∃ q, s.port = some ⟨.closing, q⟩ ∧ s.engine.running ≠ none
  | .captureBurstResponse st data => ∃ q, s.port = some ⟨.burst, q⟩ ∧ s.engine.running ≠ none ∧
      (st = .okay → data.length = q.words.length)
  | .tornWriteResponse _ => ∃ q, s.port = some ⟨.torn, q⟩ ∧ s.resetting ≠ none
  | .frameDiscarded _ => s.resetting ≠ none
  | .powerOn | .resetAssert | .hostRequest _ | .timerExpiry _ | .syncRisingEdge _ | .watchExpiry _ | .standInExpiry _
  | .absorbWindowClose _ | .edgeDelivery _ _ | .parentEdgeDelivery _ _ | .marginExpiry _ | .transferStart
  | .frameTruncated _ | .frameRefused _ | .nop _ | .identify _ | .readDevice _ | .resetDevice _ | .defineSource _ _
  | .startSource _ _ | .stopSource _ _ | .skipEdge _ _ _ | .insertEdge _ _ | .readSource _ _ | .defineGroup _ _
  | .deleteGroup _ _ | .enableGroup _ _ | .disableGroup _ _ | .resumeGroup _ _ | .loadSafe _ _ _ _ | .readGroup _ _
  | .setEventMask _ _ | .readEvents _ _ => True

/-- The payload lengths each command accepts (the command table of section 9.3). -/
def acceptedLength : Command → Nat → Prop
  | .nop, n | .identify, n | .readDevice, n | .resetDevice, n => n = 0
  | .defineSource, n => n = 14
  | .startSource, n | .stopSource, n | .insertEdge, n | .readSource, n => n = 1
  | .skipEdge, n => n = 2
  | .defineGroup, n => n = 22
  | .deleteGroup, n | .enableGroup, n | .disableGroup, n | .resumeGroup, n | .readGroup, n => n = 1
  | .loadSafe, n => ∃ k, k ≤ 49 ∧ n = 2 + 5 * k
  | .setEventMask, n => n = 2
  | .readEvents, n => n = 1

/-- The checks 1 to 6 of R72. -/
abbrev SourceFieldsOk (f : SourceFields) (s : State) : Prop :=
  f.source.toNat ≤ 3 ∧ f.kind.toNat ≤ 2 ∧ f.unit.toNat ≤ 3 ∧
  (f.kind = 0 → 1 ≤ f.period.toNat ∧ f.margin.toNat < f.period.toNat) ∧
  (f.kind = 1 → 1 ≤ f.period.toNat ∧ 1 ≤ f.guard.toNat ∧ f.syncLine.toNat ≤ 3) ∧
  (f.kind = 2 → f.parent.toNat < f.source.toNat ∧
    (∃ p : SourceNo, p.val = f.parent.toNat ∧ (s.source p).record ≠ none) ∧
    1 ≤ f.divisor.toNat ∧ f.divisor.toNat ≤ 256)

/-- The record that accepted fields are stored as: the fields of the kind, no others (R71, R187). -/
def storedSource (f : SourceFields) : SourceRecord where
  unit := if f.unit = 0 then .us1 else if f.unit = 1 then .us10 else if f.unit = 2 then .us100 else .ms1
  margin := f.margin
  kind :=
    if f.kind = 0 then .timer f.period
    else if f.kind = 1 then .external f.period f.guard f.holdoverLimit (Fin.ofNat 4 f.syncLine.toNat)
    else .divided (Fin.ofNat 4 f.parent.toNat) f.divisor.toNat

/-- The byte address is a word of the range with this base and length (R2). -/
abbrev InRange (base length a : Nat) : Prop := ∃ k, k < length ∧ a = base + 4 * k

/-- The checks 1 to 8 of R3, with the flag bytes of R191, in byte addresses. -/
def GroupFieldsOk (g : GroupNo) (f : GroupFields) (s : State) : Prop :=
  (f.kind.toNat ≤ 1 ∧ 1 ≤ f.length.toNat ∧ f.length.toNat ≤ 256 ∧ f.source.toNat ≤ 3) ∧
  (f.base.toNat % 4 = 0 ∧ f.base.toNat + 4 * f.length.toNat ≤ 67108864) ∧
  (f.kind = 0 → f.sealOffset.toNat < f.length.toNat ∧ f.policy.toNat ≤ 1 ∧ f.seqPresent.toNat ≤ 1 ∧ f.bbm.toNat ≤ 1 ∧
    f.latch.toNat ≤ 1) ∧
  (f.kind = 1 → f.stampPresent.toNat ≤ 1 ∧ (f.stampPresent = 1 → f.stampOffset.toNat < f.length.toNat)) ∧
  (f.kind = 0 → f.seqPresent = 1 → f.seqAddr.toNat % 4 = 0 ∧ f.seqAddr.toNat < 67108864 ∧
    ¬ InRange f.base.toNat f.length.toNat f.seqAddr.toNat) ∧
  ∀ h : GroupNo, h ≠ g → ∀ y ∈ s.group h,
    (∀ a, InRange f.base.toNat f.length.toNat a → ¬ InRange y.record.base.toNat y.record.length a) ∧
    (∀ a ∈ y.record.seqAddr, ¬ InRange f.base.toNat f.length.toNat a.toNat) ∧
    (f.kind = 0 → f.seqPresent = 1 →
      ¬ InRange y.record.base.toNat y.record.length f.seqAddr.toNat ∧ y.record.seqAddr ≠ some f.seqAddr)

/-- The record that accepted fields are stored as (R2, R191); what the other kind would hold is 0, absent or off (log 20). -/
def storedGroup (f : GroupFields) : GroupRecord where
  kind := if f.kind = 0 then .output else .input
  base := f.base
  length := f.length.toNat
  source := Fin.ofNat 4 f.source.toNat
  sealOffset := if f.kind = 0 then f.sealOffset else 0
  seqAddr := if f.kind = 0 ∧ f.seqPresent = 1 then some f.seqAddr else none
  bbm := decide (f.kind = 0 ∧ f.bbm = 1)
  policy := if f.kind = 0 ∧ f.policy = 1 then .reject else .coalesce
  staleLimit := if f.kind = 0 then f.staleLimit else 0
  latch := decide (f.kind = 0 ∧ f.latch = 1)
  stampOffset := if f.kind = 1 ∧ f.stampPresent = 1 then some f.stampOffset else none
  holdLimit := if f.kind = 1 then f.holdLimit else 0

/-- Every offer of the waiting edges to the group is void: it has become DISABLED (R79). -/
def voidedForGroup (g : GroupNo) (es : List Edge) : List Edge :=
  es.map (fun e => { e with groups := e.groups.map (fun o => if o.group = g then ⟨o.group, true⟩ else o) })

/-- Every offer of the waiting edges to the child is void: it has been stopped or redefined (R80). -/
def voidedForChild (c : SourceNo) (es : List Edge) : List Edge :=
  es.map (fun e => { e with children := e.children.map (fun o => if o.child = c then ⟨o.child, true⟩ else o) })

/-- A byte lane of a word. -/
def laneByte (w : Word) (i : Nat) : Byte := w.extractLsb' (8 * i) 8

/-- The answer of the memory to an outstanding request of a plain job. -/
def plainAnswer (p : Purpose) (st : PortStatus) : Option Instr :=
  match p with
  | .opening => some (.openingWriteResponse st)
  | .dataWrite => some (.dataWriteResponse st)
  | .closing => some (.closingWriteResponse st)
  | .run | .layered | .releaseRead | .releaseWrite | .burst | .torn => none

/-- The outstanding requests of a plain job, each answered with the next status of the list: the requests in the order in which
they were answered, and the state at the end. -/
def plainTrace : List PortStatus → State → List PortRequest × State
  | [], s => ([], s)
  | st :: rest, s =>
    match s.port with
    | none => ([], s)
    | some u =>
      match plainAnswer u.purpose st with
      | none => ([], s)
      | some i =>
        match exec i s with
        | .next t => (u.request :: (plainTrace rest t).1, (plainTrace rest t).2)
        | .fault _ => ([], s)
        | .refused _ => ([], s)

end Sys2Proof.Safety
end

