-- ==== Sys2Proof/Certificates/Slice0/Obligations.lean ====
section
/-! DEFINITION. The statements for the provers.  Each formalises rules of spec/ about every state, or derives from them what
one command does and what it leaves unchanged. -/

open Sys2Proof Sys2Proof.Machine Sys2Proof.Safety

/-! ## The step, and where it stops -/

/-- The command at the front of the queue is run on the state with the rest of the queue, whole and indivisible as chapter 95 has
each step.  That commands wait in a queue, and that an empty queue lets a host request at a gap go on and otherwise changes nothing,
is the model's choice (logs 1, 2, 8 and 23). -/
def Obligations.StepRunsFrontCommand : Prop :=
  (∀ (c : Instr) (rest : List Instr) (s : State),
    step { s with pending := c :: rest } = exec c { s with pending := rest }) ∧
  (∀ s : State, s.pending = [] → step s = .next (tick s)) ∧
  ∀ s : State, (s.resetAsserted = true ∨ s.resetting ≠ none ∨ ∀ a ∈ s.host.active, a.wait ≠ .nothing) → tick s = s

/-- A command answers a next state exactly when its term is well formed and, if it answers a memory request or discards a frame, the
request is outstanding or a RESET_DEVICE executes (outside the RESET input); and no command is refused.  The stops are the model's
choices (logs 6 and 18), and so is that an expiry or a delivery that is not due, a frame outside a select period and a command
while the RESET input is asserted answer the state unchanged (logs 4, 13 and 14). -/
def Obligations.CommandsStopOnlyOnWhatCannotHappen : Prop :=
  ∀ (i : Instr) (s : State),
    ((∃ t, exec i s = .next t) ↔ i.wellFormed = true ∧ (s.resetAsserted = true ∨ AnswerDue i s)) ∧
    ∀ r, exec i s ≠ .refused r

/-! ## The RESET input -/

/-- RESET_ASSERT drops the host request in progress, the engine's jobs, the outstanding memory request, a RESET_DEVICE under
execution and the transfer in progress, and drives ALERT low; and while the input is asserted every command but POWER_ON and
RESET_ASSERT changes nothing (DESIGN CHOICE, log 13). -/
def Obligations.ResetInputHoldsThePart : Prop :=
  (∀ s : State, exec .resetAssert s = .next { s with
      resetAsserted := true
      engine := { queue := [], running := none, marginList := [] }
      streak := 0
      port := none
      host := { s.host with active := none, waiting := [] }
      events := { s.events with alert := false }
      link := { s.link with receive := .closed, received := [] }
      resetting := none }) ∧
  ∀ (i : Instr) (s : State), s.resetAsserted = true → i.wellFormed = true → i ≠ .powerOn → i ≠ .resetAssert →
    exec i s = .next s

/-- POWER_ON sets every block to its power-on values whatever it held before, and READ_DEVICE then reports 4096, 1024 and 2048
free entries and words, an empty queue and no losses. -/
def Obligations.PowerOnSetsEveryBlock : Prop :=
  ∀ s : State, ∃ t, exec .powerOn s = .next t ∧
    (∀ g, t.group g = none) ∧ t.freeStage = 4096 ∧ t.freeSafe = 1024 ∧ t.freeSnapshot = 2048 ∧
    (∀ n, t.source n = { record := none, running := false, epoch := 0, skip := false, lock := .await, holdover := 0,
                         phase := 0, countdown := none, watch := none, standIn := none, absorbWindow := none,
                         line := false }) ∧
    t.edges = [] ∧ t.engine = { queue := [], running := none, marginList := [] } ∧ t.streak = 0 ∧ t.port = none ∧
    t.host = { active := none, waiting := [], responses := [] } ∧
    t.events = { records := [], dropCount := 0, mask := 0xFFFF, alert := false } ∧
    t.link.receive = .closed ∧ t.link.received = [] ∧ t.link.discarded = 0 ∧
    t.link.response = { status := .powered, tag := 0, payload := [] } ∧
    t.resetAsserted = false ∧ t.resetting = none ∧ t.pending = s.pending ∧
    ∀ tag, ∃ u v, exec .transferStart t = .next u ∧ u.link.transmit = { status := .powered, tag := 0, payload := [] } ∧
      exec (.readDevice tag) u = .next v ∧
      v.link.response = { status := .ok, tag := tag, payload := [0x10, 0, 0x04, 0, 0x08, 0, 0, 0, 0, 0, 0] }

/-! ## Transfers and frames -/

/-- TRANSFER_START clears the receive state and copies the response buffer into the transmit copy, whose frame MDO then carries
byte by byte while MSEL is asserted, followed by 0xFF; MDO is not driven while MSEL is deasserted or the RESET input is asserted, and
nor in a select period that was in progress when RESET was released (the model's choice, log 30); bytes cross the link most
significant bit first, and the bits of a byte that is not complete are discarded; and a NOP changes nothing but the receive state,
during RESET_DEVICE too. -/
def Obligations.TransferStartAndNop : Prop :=
  (∀ s : State, s.resetAsserted = false →
    ∃ t, exec .transferStart s = .next t ∧
      t = { s with link := { s.link with receive := .receiving, received := [], transmit := s.link.response } } ∧
      ∀ i, t.mdoByte true i = some
        (([statusCode s.link.response.status, s.link.response.tag, BitVec.ofNat 8 s.link.response.payload.length]
          ++ s.link.response.payload
          ++ [crc8 (statusCode s.link.response.status :: s.link.response.tag ::
                BitVec.ofNat 8 s.link.response.payload.length :: s.link.response.payload)]).getD i 0xFF)) ∧
  (∀ (s : State) (msel : Bool) (i : Nat), msel = false ∨ s.resetAsserted = true ∨ s.link.receive = .closed →
    s.mdoByte msel i = none) ∧
  (∀ (s : State) (msel : Bool) (i k : Nat) (b : Byte), k < 8 → s.mdoByte msel i = some b →
    s.mdoBit msel (8 * i + k) = some (b.getLsbD (7 - k))) ∧
  (∀ (bytes : List Byte) (extra : List Bool), extra.length < 8 →
    wireBytes (bytes.flatMap (fun b => (List.range 8).map (fun k => b.getLsbD (7 - k))) ++ extra) = bytes) ∧
  ∀ (tag : Byte) (s : State), s.resetAsserted = false → s.link.receive = .receiving →
    exec (.nop tag) s = .next { s with link := { s.link with
      receive := .complete, received := [0, tag, 0, crc8 [0, tag, 0]] } }

/-- A truncated frame leaves the response TRUNCATED with tag 0 and no payload, and changes nothing else but the receive
state. -/
def Obligations.TruncatedFrameIsAnswered : Prop :=
  ∀ (bytes : List Byte) (s : State), LinkReady s → bytes ≠ [] → examineFrame bytes = .incomplete →
    exec (.frameTruncated bytes) s = .next { s with link := { s.link with
      receive := .closed, received := bytes, response := { status := .truncated, tag := 0, payload := [] } } }

/-- The examination of a complete frame, row by row, and the response of the first four rows. -/
def Obligations.FrameExaminationOrder : Prop :=
  (∀ (code tag length : Byte) (rest : List Byte), 250 < length.toNat →
    examineFrame (code :: tag :: length :: rest) = .refused .badLength tag) ∧
  (∀ (code tag length check : Byte) (payload after : List Byte), length.toNat ≤ 250 → payload.length = length.toNat →
    (check ≠ crc8 (code :: tag :: length :: payload) →
      examineFrame (code :: tag :: length :: payload ++ check :: after) = .refused .badCheck tag) ∧
    (check = crc8 (code :: tag :: length :: payload) →
      ((∀ c, commandCode c ≠ code) →
        examineFrame (code :: tag :: length :: payload ++ check :: after) = .refused .badCommand tag) ∧
      ∀ c, commandCode c = code →
        (¬ acceptedLength c length.toNat →
          examineFrame (code :: tag :: length :: payload ++ check :: after) = .refused .badLength tag) ∧
        (acceptedLength c length.toNat →
          ∃ i, examineFrame (code :: tag :: length :: payload ++ check :: after) = .accepted i ∧
            framePayload i = some (c, tag, payload)))) ∧
  ∀ (bytes : List Byte) (st : Status) (tag : Byte) (s : State), LinkReady s → examineFrame bytes = .refused st tag →
    exec (.frameRefused bytes) s = .next { s with link := { s.link with
      receive := .complete, received := bytes, response := { status := st, tag := tag, payload := [] } } }

/-- While RESET_DEVICE executes, every frame other than a NOP, complete or truncated, is discarded: the discarded-frame count
rises by 1, saturating, the response buffer is kept, and nothing else changes but the receive state. -/
def Obligations.FramesAreDiscardedDuringReset : Prop :=
  ∀ (s : State), s.resetAsserted = false → s.resetting ≠ none → s.link.receive = .receiving →
    (∀ i : Instr, i.wellFormed = true → framePayload i ≠ none → (∀ tag, i ≠ .nop tag) →
      exec i s = .next { s with link := { s.link with
        receive := .complete, received := encodeFrame i,
        discarded := if s.link.discarded = 0xFFFF then 0xFFFF else s.link.discarded + 1 } }) ∧
    (∀ bytes : List Byte, bytes ≠ [] → examineFrame bytes = .incomplete →
      exec (.frameTruncated bytes) s = .next { s with link := { s.link with
        receive := .closed, received := bytes,
        discarded := if s.link.discarded = 0xFFFF then 0xFFFF else s.link.discarded + 1 } } ∧
      exec (.frameDiscarded bytes) s = .next { s with link := { s.link with
        receive := .closed, received := bytes,
        discarded := if s.link.discarded = 0xFFFF then 0xFFFF else s.link.discarded + 1 } }) ∧
    (∀ (bytes : List Byte) (st : Status) (tag : Byte), examineFrame bytes = .refused st tag →
      exec (.frameRefused bytes) s = .next { s with link := { s.link with
        receive := .complete, received := bytes,
        discarded := if s.link.discarded = 0xFFFF then 0xFFFF else s.link.discarded + 1 } } ∧
      exec (.frameDiscarded bytes) s = .next { s with link := { s.link with
        receive := .complete, received := bytes,
        discarded := if s.link.discarded = 0xFFFF then 0xFFFF else s.link.discarded + 1 } }) ∧
    ∀ (bytes : List Byte) (i : Instr), examineFrame bytes = .accepted i → (∀ tag, i ≠ .nop tag) →
      exec (.frameDiscarded bytes) s = .next { s with link := { s.link with
        receive := .complete, received := bytes,
        discarded := if s.link.discarded = 0xFFFF then 0xFFFF else s.link.discarded + 1 } }

/-- The frame written for a well-formed management command is examined as that command, with every field as it was. -/
def Obligations.FrameOfCommandReadsBack : Prop :=
  ∀ i : Instr, i.wellFormed = true → framePayload i ≠ none → examineFrame (encodeFrame i) = .accepted i

/-! ## Device and event commands -/

/-- IDENTIFY answers the five identity bytes and changes nothing else; READ_DEVICE answers the six values as they stand and
then sets the discarded-frame count, and nothing else, to 0; and SET_EVENT_MASK replaces the whole kind mask, while the records,
the drop count and ALERT stay. -/
def Obligations.DeviceReadsAndEventMask : Prop :=
  (∀ (tag : Byte) (s : State), LinkReady s →
    exec (.identify tag) s = .next (answered (.identify tag) .ok tag [0x00, 0xCD, 0x12, 0x0C, 0x01] s)) ∧
  (∀ (tag : Byte) (s : State), LinkReady s →
    exec (.readDevice tag) s = .next (answered (.readDevice tag) .ok tag
      (bytes16 (BitVec.ofNat 16 s.freeStage) ++ bytes16 (BitVec.ofNat 16 s.freeSafe)
        ++ bytes16 (BitVec.ofNat 16 s.freeSnapshot) ++ [BitVec.ofNat 8 s.events.records.length]
        ++ bytes16 s.events.dropCount ++ bytes16 s.link.discarded)
      { s with link := { s.link with discarded := 0 } })) ∧
  ∀ (tag : Byte) (mask : BitVec 16) (s : State), LinkReady s →
    exec (.setEventMask tag mask) s = .next (answered (.setEventMask tag mask) .ok tag []
      { s with events := { s.events with mask := mask } })

/-- READ_EVENTS: an n of 0 or above 25 answers BAD_ARGUMENT and removes nothing; otherwise up to n records leave the head of the
queue and are returned, nine bytes each as R205 lays them out, after the drop count and their number, the drop count becomes 0, and
ALERT stays high exactly while records remain. -/
def Obligations.ReadEventsRemovesFromTheHead : Prop :=
  ∀ (tag n : Byte) (s : State), LinkReady s →
    (n.toNat = 0 ∨ 25 < n.toNat →
      exec (.readEvents tag n) s = .next (answered (.readEvents tag n) .badArgument tag [] s)) ∧
    (1 ≤ n.toNat → n.toNat ≤ 25 →
      exec (.readEvents tag n) s = .next (answered (.readEvents tag n) .ok tag
        (bytes16 s.events.dropCount ++ [BitVec.ofNat 8 (min n.toNat s.events.records.length)]
          ++ (s.events.records.take n.toNat).flatMap EventRecord.bytes)
        { s with events := { s.events with
          records := s.events.records.drop n.toNat, dropCount := 0,
          alert := decide (n.toNat < s.events.records.length) } })) ∧
    ∀ e : EventRecord, ∃ b0 : Byte, e.bytes = [b0, BitVec.ofNat 8 (e.group.elim 0 Fin.val),
          BitVec.ofNat 8 (e.source.elim 0 Fin.val)] ++ bytes32 (e.epoch.getD 0) ++ bytes16 e.detail ∧
      e.bytes.length = 9 ∧
      b0.getLsbD 7 = e.group.isSome ∧ b0.getLsbD 6 = e.source.isSome ∧ b0.getLsbD 5 = e.epoch.isSome ∧
      b0.getLsbD 4 = false ∧
      b0.toNat % 16 = [EventKind.imageLate, .sealCoalesced, .sealRejected, .imageDamaged, .poolExhausted, .commitBehind,
        .commitFault, .groupStale, .groupRecovered, .captureBehind, .captureFault, .holdExpired, .syncMissed, .syncLost,
        .syncRegained, .groupDrained].idxOf e.kind

/-- What the queue does with a raised event: discarded when its kind is disabled, appended while fewer than 64 records stand in
the queue, dropped and counted otherwise; the drop count saturates. -/
def Obligations.RaisedEventIsOfferedToTheQueue : Prop :=
  ∀ (q : EventQueue) (e : EventRecord),
    (q.mask.getLsbD e.kind.code.toNat = false → q.raise e = q) ∧
    (q.mask.getLsbD e.kind.code.toNat = true → q.records.length < 64 →
      q.raise e = { q with records := q.records ++ [e], alert := true }) ∧
    (q.mask.getLsbD e.kind.code.toNat = true → 64 ≤ q.records.length →
      q.raise e = { q with dropCount := if q.dropCount = 0xFFFF then 0xFFFF else q.dropCount + 1, alert := true })

/-! ## Epoch sources -/

/-- DEFINE_SOURCE: a failing check answers BAD_ARGUMENT, and a RUNNING source of another kind WRONG_STATE, with nothing changed.
Accepted, it stores the fields of its kind: on a slot that does not run it sets every running value but the EPOCH line; on a
RUNNING source it restarts the timers and counts of its kind, while the epoch number, the skip flag and the line keep their
values.  Parent edges offered to the source before are ignored from now on.  That the values of the other kinds are set too is the
model's reading of R73 and R74 (DEDUCED, log 24). -/
def Obligations.DefineSource : Prop :=
  ∀ (tag : Byte) (f : SourceFields) (s : State), LinkReady s →
    (¬ SourceFieldsOk f s →
      exec (.defineSource tag f) s = .next (answered (.defineSource tag f) .badArgument tag [] s)) ∧
    ∀ n : SourceNo, n.val = f.source.toNat → SourceFieldsOk f s →
      ((s.source n).running = false →
        exec (.defineSource tag f) s = .next (answered (.defineSource tag f) .ok tag [] { s with
          edges := voidedForChild n s.edges
          sources := s.sources.set n
            { record := some (storedSource f), running := false, epoch := 0, skip := false, lock := .await, holdover := 0,
              phase := 0, countdown := none, watch := none, standIn := none, absorbWindow := none,
              line := (s.source n).line } })) ∧
      ∀ old ∈ (s.source n).record, (s.source n).running = true →
        (old.kind.same (storedSource f).kind = false →
          exec (.defineSource tag f) s = .next (answered (.defineSource tag f) .wrongState tag [] s)) ∧
        (old.kind.same (storedSource f).kind = true →
          exec (.defineSource tag f) s = .next (answered (.defineSource tag f) .ok tag [] { s with
            edges := voidedForChild n s.edges
            sources := s.sources.set n
              { s.source n with
                record := some (storedSource f), lock := .await, holdover := 0, phase := 0,
                countdown := if f.kind = 0 then some ((storedSource f).duration f.period) else none,
                watch := none, standIn := none, absorbWindow := none } }))

/-- START_SOURCE, STOP_SOURCE, SKIP_EDGE and INSERT_EDGE: a source number above 3 answers BAD_ARGUMENT and a source in the wrong
state WRONG_STATE, with nothing changed; otherwise each answers OK with its own effect on the source.  That START_SOURCE sets the
values of every kind is the model's reading of R75 (DEDUCED, log 24). -/
def Obligations.SourceCommands : Prop :=
  ∀ (tag b cancel : Byte) (s : State), LinkReady s →
    (3 < b.toNat →
      exec (.startSource tag b) s = .next (answered (.startSource tag b) .badArgument tag [] s) ∧
      exec (.stopSource tag b) s = .next (answered (.stopSource tag b) .badArgument tag [] s) ∧
      exec (.skipEdge tag b cancel) s = .next (answered (.skipEdge tag b cancel) .badArgument tag [] s) ∧
      exec (.insertEdge tag b) s = .next (answered (.insertEdge tag b) .badArgument tag [] s)) ∧
    ∀ n : SourceNo, n.val = b.toNat →
      (∀ r, (s.source n).record = some r → (s.source n).running = false →
        exec (.startSource tag b) s = .next (answered (.startSource tag b) .ok tag []
          { s with
            sources := s.sources.set n
              { s.source n with
                running := true, epoch := 0, lock := .await, holdover := 0, phase := 0,
                countdown := (match r.kind with
                  | .timer p => some (r.duration p)
                  | .external _ _ _ _ => none
                  | .divided _ _ => none),
                watch := none, standIn := none, absorbWindow := none } })) ∧
      ((s.source n).record = none ∨ (s.source n).running = true →
        exec (.startSource tag b) s = .next (answered (.startSource tag b) .wrongState tag [] s)) ∧
      ((s.source n).running = true →
        exec (.stopSource tag b) s = .next (answered (.stopSource tag b) .ok tag []
          { s with
            edges := voidedForChild n s.edges
            sources := s.sources.set n
              { s.source n with
                running := false, skip := false, countdown := none, watch := none, standIn := none,
                absorbWindow := none } })) ∧
      ((s.source n).running = false →
        exec (.stopSource tag b) s = .next (answered (.stopSource tag b) .wrongState tag [] s) ∧
        exec (.insertEdge tag b) s = .next (answered (.insertEdge tag b) .wrongState tag [] s)) ∧
      (1 < cancel.toNat →
        exec (.skipEdge tag b cancel) s = .next (answered (.skipEdge tag b cancel) .badArgument tag [] s)) ∧
      (cancel.toNat ≤ 1 → (s.source n).running = false →
        exec (.skipEdge tag b cancel) s = .next (answered (.skipEdge tag b cancel) .wrongState tag [] s)) ∧
      (cancel.toNat ≤ 1 → (s.source n).running = true →
        exec (.skipEdge tag b cancel) s = .next (answered (.skipEdge tag b cancel) .ok tag []
          { s with sources := s.sources.set n { s.source n with skip := decide (cancel = 0) } })) ∧
      (∀ r, (s.source n).record = some r → (s.source n).running = true →
        exec (.insertEdge tag b) s = .next (answered (.insertEdge tag b) .ok tag []
          (emitEdge n { s with
            sources := s.sources.set n
              (match r.kind, (s.source n).lock with
                | .timer p, _ => { s.source n with countdown := some (r.duration p) }
                | .external p g _ _, .locked => { s.source n with watch := some (r.duration p + r.duration g) }
                | .external p _ _ _, .holdover => { s.source n with standIn := some (r.duration p) }
                | .external _ _ _ _, .await => s.source n
                | .external _ _ _ _, .lost => s.source n
                | .divided _ _, _ => { s.source n with phase := 0 }) })))

/-- READ_SOURCE answers the nine bytes of R190 for the slot's state and changes nothing else. -/
def Obligations.ReadSourceReports : Prop :=
  ∀ (tag b : Byte) (s : State), LinkReady s →
    (3 < b.toNat → exec (.readSource tag b) s = .next (answered (.readSource tag b) .badArgument tag [] s)) ∧
    ∀ n : SourceNo, n.val = b.toNat →
      exec (.readSource tag b) s = .next (answered (.readSource tag b) .ok tag
        ((match (s.source n).record with
            | none => ([0x00, 0x00] : List Byte)
            | some r =>
              [if (s.source n).running then 0x02 else 0x01,
                match r.kind, (s.source n).lock with
                  | .external _ _ _ _, .await => 0x00
                  | .external _ _ _ _, .locked => 0x01
                  | .external _ _ _ _, .holdover => 0x02
                  | .external _ _ _ _, .lost => 0x03
                  | .timer _, _ => 0xFF
                  | .divided _ _, _ => 0xFF])
          ++ bytes32 (s.source n).epoch
          ++ [match (s.source n).record.map SourceRecord.kind with
                | some (.external _ _ _ _) => (s.source n).holdover
                | some (.timer _) => 0x00
                | some (.divided _ _) => 0x00
                | none => 0x00,
              if (s.source n).skip then 0x01 else 0x00,
              match (s.source n).record.map SourceRecord.kind with
                | some (.divided _ _) => BitVec.ofNat 8 (s.source n).phase
                | some (.timer _) => 0x00
                | some (.external _ _ _ _) => 0x00
                | none => 0x00]) s)

/-- The emission of an edge: the epoch number rises by 1 and wraps, the EPOCH line changes level, nothing but the waiting
deliveries changes beside them, and the edge is offered, with its number, to exactly the enabled groups bound to the source, in
ascending number, and to exactly the RUNNING children of the source. -/
def Obligations.EdgeIsEmitted : Prop :=
  ∀ (n : SourceNo) (s : State),
    emitEdge n s = { s with
      sources := s.sources.set n
        { s.source n with epoch := (s.source n).epoch + 1, line := !(s.source n).line }
      edges := (emitEdge n s).edges } ∧
    (∃ e : Edge, (emitEdge n s).edges = s.edges ++ (if e.groups = [] ∧ e.children = [] then [] else [e]) ∧
      e.source = n ∧ e.epoch = (s.source n).epoch + 1 ∧
      (e.groups.map GroupOffer.group).Pairwise (· < ·) ∧ (e.children.map ChildOffer.child).Nodup ∧
      (∀ o ∈ e.groups, o.void = false) ∧ (∀ o ∈ e.children, o.void = false) ∧
      (∀ g : GroupNo, g ∈ e.groups.map GroupOffer.group ↔
        ∃ x ∈ s.group g, x.state ≠ .disabled ∧ x.record.source = n) ∧
      ∀ c : SourceNo, c ∈ e.children.map ChildOffer.child ↔
        (s.source c).running = true ∧ ∃ r ∈ (s.source c).record, ∃ d, r.kind = .divided n d)

/-- The expiries of the timers of a source.  TIMER_EXPIRY of a RUNNING TIMER source reloads the countdown and emits an edge or
consumes the skip; WATCH_EXPIRY in LOCKED gives the first stand-in edge with SYNC_MISSED, or LOST with SYNC_LOST when the
holdover limit is 0; STAND_IN_EXPIRY in HOLDOVER gives a further stand-in edge below the limit and LOST with SYNC_LOST at it;
ABSORB_WINDOW_CLOSE closes the window; and an expiry of a timer that does not run, and the close of a window that is not open,
change nothing (DEDUCED, log 4). -/
def Obligations.TimerExpiries : Prop :=
  ∀ (n : SourceNo) (s : State), s.resetAsserted = false →
    (∀ r p, (s.source n).running = true → (s.source n).record = some r → r.kind = .timer p →
      ((s.source n).skip = true →
        exec (.timerExpiry n) s = .next { s with
        sources := s.sources.set n
          { s.source n with countdown := some (r.duration p), skip := false } }) ∧
      ((s.source n).skip = false →
        exec (.timerExpiry n) s = .next (emitEdge n { s with
        sources := s.sources.set n
          { s.source n with countdown := some (r.duration p) } }))) ∧
    (∀ r p g limit l, (s.source n).running = true → (s.source n).record = some r → r.kind = .external p g limit l →
      ((s.source n).lock = .locked → (s.source n).watch ≠ none →
        (limit = 0 →
          exec (.watchExpiry n) s = .next { s with
            sources := s.sources.set n
              { s.source n with lock := .lost, watch := none, standIn := none, absorbWindow := none }
            events := s.events.raise
              { kind := .syncLost, group := none, source := some n, epoch := some (s.source n).epoch,
                detail := (s.source n).holdover.setWidth 16 } }) ∧
        (limit ≠ 0 → ∃ t, exec (.watchExpiry n) s = .next t ∧
          t = { emitOrSkip n { s with
                sources := s.sources.set n
                  { s.source n with lock := .holdover, holdover := 1, watch := none, standIn := some (r.duration p),
                                    absorbWindow := some (r.duration g) } } with
                events := s.events.raise
                  { kind := .syncMissed, group := none, source := some n, epoch := some (t.source n).epoch,
                    detail := 0 } })) ∧
      ((s.source n).lock = .holdover → (s.source n).standIn ≠ none →
        ((s.source n).holdover < limit →
          exec (.standInExpiry n) s = .next (emitOrSkip n { s with
          sources := s.sources.set n
            { s.source n with holdover := (s.source n).holdover + 1, watch := none, standIn := some (r.duration p),
                              absorbWindow := some (r.duration g) } })) ∧
        (limit ≤ (s.source n).holdover →
          exec (.standInExpiry n) s = .next { s with
            sources := s.sources.set n
              { s.source n with lock := .lost, watch := none, standIn := none, absorbWindow := none }
            events := s.events.raise
              { kind := .syncLost, group := none, source := some n, epoch := some (s.source n).epoch,
                detail := (s.source n).holdover.setWidth 16 } }))) ∧
    exec (.absorbWindowClose n) s = .next { s with
    sources := s.sources.set n
      { s.source n with absorbWindow := none } } ∧
    ((s.source n).running = false →
      exec (.timerExpiry n) s = .next s ∧ exec (.watchExpiry n) s = .next s ∧ exec (.standInExpiry n) s = .next s) ∧
    ((s.source n).lock ≠ .locked ∨ (s.source n).watch = none → exec (.watchExpiry n) s = .next s) ∧
    ((s.source n).lock ≠ .holdover ∨ (s.source n).standIn = none → exec (.standInExpiry n) s = .next s)

/-- A rising SYNC edge: every RUNNING EXTERNAL source that follows the line is LOCKED afterwards with its watch started, no other
source changes, and each of them emits an edge or consumes its skip unless the edge is absorbed in an open window; the emitted
edges are handed for delivery, each as EdgeIsEmitted says, and a source that was LOST raises SYNC_REGAINED, both in ascending
source number (DESIGN CHOICE, log 12), and nothing else raises an event. -/
def Obligations.SyncEdgeLocksItsFollowers : Prop :=
  ∀ (line : SyncLine) (s : State), s.resetAsserted = false →
    ∃ t, exec (.syncRisingEdge line) s = .next t ∧
      (∀ n, ¬ (∃ r ∈ (s.source n).record, ∃ p g limit, (s.source n).running = true ∧ r.kind = .external p g limit line) →
        t.source n = s.source n) ∧
      (∀ n r p g limit, (s.source n).running = true → (s.source n).record = some r →
        r.kind = .external p g limit line →
        t.source n =
          (if (s.source n).lock = .locked then
            { s.source n with
              watch := some (r.duration p + r.duration g), skip := false,
              epoch := if (s.source n).skip then (s.source n).epoch else (s.source n).epoch + 1,
              line := if (s.source n).skip then (s.source n).line else !(s.source n).line }
          else if (s.source n).lock = .holdover ∧ (s.source n).absorbWindow ≠ none then
            { s.source n with
              lock := .locked, holdover := 0, watch := some (r.duration p + r.duration g), standIn := none,
              absorbWindow := none }
          else
            { s.source n with
              lock := .locked, holdover := 0, watch := some (r.duration p + r.duration g), standIn := none,
              absorbWindow := none, skip := false,
              epoch := if (s.source n).skip then (s.source n).epoch else (s.source n).epoch + 1,
              line := if (s.source n).skip then (s.source n).line else !(s.source n).line })) ∧
      t.events = (((List.finRange 4).filter (fun n => decide ((s.source n).lock = .lost) && (s.source n).running &&
          (match (s.source n).record with
            | some r => (match r.kind with
              | .external _ _ _ l => decide (l = line)
              | .timer _ => false
              | .divided _ _ => false)
            | none => false))).foldl (fun q n => q.raise
          { kind := .syncRegained, group := none, source := some n, epoch := some (t.source n).epoch, detail := 0 })
        s.events) ∧
      t.edges = s.edges ++ ((List.finRange 4).filter (fun n => (s.source n).running && !(s.source n).skip &&
          !(decide ((s.source n).lock = .holdover) && (s.source n).absorbWindow.isSome) &&
          (match (s.source n).record with
            | some r => (match r.kind with
              | .external _ _ _ l => decide (l = line)
              | .timer _ => false
              | .divided _ _ => false)
            | none => false))).flatMap (fun n => (emitEdge n { s with edges := [] }).edges) ∧
      t = { s with sources := t.sources, edges := t.edges, events := t.events }

/-- PARENT_EDGE_DELIVERY takes the oldest edge of the parent that is still offered to the child: a void offer is only taken away;
otherwise a RUNNING DIVIDED child counts it, and at the divisor its phase count becomes 0 and it emits an edge or consumes a
skip, and a child that does not run ignores it.  A delivery that is not waiting changes nothing (DEDUCED, logs 4 and 10). -/
def Obligations.ParentEdgeIsCounted : Prop :=
  (∀ (n c : SourceNo) (es rest : List Edge) (void : Bool),
    takeChildOffer n c es = some (void, rest) ↔
      ∃ before e os₁ os₂ after, es = before ++ e :: after ∧
        (∀ d ∈ before, d.source = n → ∀ o ∈ d.children, o.child ≠ c) ∧
        e.source = n ∧ e.children = os₁ ++ ⟨c, void⟩ :: os₂ ∧ (∀ o ∈ os₁, o.child ≠ c) ∧
        rest = before ++ (if e.groups = [] ∧ os₁ ++ os₂ = [] then after else { e with children := os₁ ++ os₂ } :: after)) ∧
  ∀ (parent child : SourceNo) (s : State), s.resetAsserted = false →
    (takeChildOffer parent child s.edges = none → exec (.parentEdgeDelivery parent child) s = .next s) ∧
    (∀ rest, takeChildOffer parent child s.edges = some (true, rest) →
      exec (.parentEdgeDelivery parent child) s = .next { s with edges := rest }) ∧
    (∀ rest, takeChildOffer parent child s.edges = some (false, rest) → (s.source child).running = false →
      exec (.parentEdgeDelivery parent child) s = .next { s with edges := rest }) ∧
    ∀ rest r p d, takeChildOffer parent child s.edges = some (false, rest) → (s.source child).running = true →
      (s.source child).record = some r → r.kind = .divided p d →
      ((s.source child).phase + 1 < d →
        exec (.parentEdgeDelivery parent child) s = .next { s with
          edges := rest
          sources := s.sources.set child { s.source child with phase := (s.source child).phase + 1 } }) ∧
      (d ≤ (s.source child).phase + 1 → (s.source child).skip = true →
        exec (.parentEdgeDelivery parent child) s = .next { s with
          edges := rest
          sources := s.sources.set child { s.source child with phase := 0, skip := false } }) ∧
      (d ≤ (s.source child).phase + 1 → (s.source child).skip = false →
        exec (.parentEdgeDelivery parent child) s = .next (emitEdge child { s with
          edges := rest
          sources := s.sources.set child { s.source child with phase := 0 } }))

/-! ## Edges at groups -/

/-- A delivery of an edge to a group takes the oldest edge of the source that still offers it, and within that edge the groups
stand in their order: the offer taken is the first that is left.  A void offer is only taken away, and a delivery that is not
waiting changes nothing (DEDUCED, logs 4 and 10). -/
def Obligations.DeliveriesAreTakenInOrder : Prop :=
  (∀ (n : SourceNo) (g : GroupNo) (es rest : List Edge) (ep : BitVec 32) (void : Bool),
    takeGroupOffer n g es = some (ep, void, rest) ↔
      ∃ before e os after, es = before ++ e :: after ∧
        (∀ d ∈ before, d.source = n → ∀ o ∈ d.groups, o.group ≠ g) ∧
        e.source = n ∧ e.epoch = ep ∧ e.groups = ⟨g, void⟩ :: os ∧
        rest = before ++ (if os = [] ∧ e.children = [] then after else { e with groups := os } :: after)) ∧
  ∀ (n : SourceNo) (g : GroupNo) (s : State), s.resetAsserted = false →
    (takeGroupOffer n g s.edges = none → exec (.edgeDelivery n g) s = .next s) ∧
    ∀ ep rest, takeGroupOffer n g s.edges = some (ep, true, rest) →
      exec (.edgeDelivery n g) s = .next { s with edges := rest }

/-- An edge at a LIVE output group with an armed image: with no job in flight a COMMIT job takes the image, the stale count
becomes 0 and the job joins the tail of the queue; with a job in flight the image waits, the behind counter rises and
COMMIT_BEHIND is raised.  The margin of a job is the source's margin count multiplied by its unit. -/
def Obligations.EdgeCommitsOrIsBehind : Prop :=
  (∀ (s : State) (n : SourceNo), ∀ r ∈ (s.source n).record, s.marginOf n = r.duration r.margin ∧
    ∀ c, r.duration c = c.toNat * (match r.unit with
      | .us1 => 1
      | .us10 => 10
      | .us100 => 100
      | .ms1 => 1000)) ∧
  ∀ (n : SourceNo) (g : GroupNo) (s : State) (ep : BitVec 32) (rest : List Edge) (x : Group) (img : Image),
    s.resetAsserted = false → takeGroupOffer n g s.edges = some (ep, false, rest) → s.group g = some x →
    x.record.kind = .output → x.state = .live → x.armed = some img →
    (x.committing = none →
      exec (.edgeDelivery n g) s = .next (settle { s with
        edges := rest
        groups := s.groups.set g (some { x with armed := none, committing := some (.commit img), staleCount := 0 })
        engine := { s.engine with queue := s.engine.queue ++ [{
          kind := .commit, group := g, count := x.seqCount + 1, epoch := ep, bbm := x.record.bbm,
          margin := if x.record.bbm then s.marginOf x.record.source else 0,
          marginExpired := x.record.bbm && decide (s.marginOf x.record.source = 0),
          phase := if x.record.bbm then .release else .plain, progress := 0, writingIssued := false,
          closingIssued := false, faulted := false, faultPosition := none, releaseData := none }] } })) ∧
    (x.committing ≠ none →
      exec (.edgeDelivery n g) s = .next (settle { s with
        edges := rest
        groups := s.groups.set g (some { x with
          behind := if x.behind = 0xFFFF then 0xFFFF else x.behind + 1 })
        events := s.events.raise
          { kind := .commitBehind, group := some g, source := some n, epoch := some ep, detail := 0 } }))

/-- An edge at a LIVE output group with no armed image: IMAGE_LATE when a filling image is present; then the stale count rises
unless stale counting is off; at the limit the group enters SAFE with GROUP_STALE, and its SAFE job is created, made pending or
forgone. -/
def Obligations.EdgeFindsNothingToPublish : Prop :=
  ∀ (n : SourceNo) (g : GroupNo) (s : State) (ep : BitVec 32) (rest : List Edge) (x : Group) (late : EventQueue),
    s.resetAsserted = false → takeGroupOffer n g s.edges = some (ep, false, rest) → s.group g = some x →
    x.record.kind = .output → x.state = .live → x.armed = none →
    late = (match x.filling with
      | some f => s.events.raise { kind := .imageLate, group := some g, source := some n, epoch := some ep,
                                   detail := BitVec.ofNat 16 f.entries.length }
      | none => s.events) →
    (x.record.staleLimit = 0 →
      exec (.edgeDelivery n g) s = .next (settle { s with edges := rest, events := late })) ∧
    (x.record.staleLimit ≠ 0 → x.staleCount + 1 ≠ x.record.staleLimit →
      exec (.edgeDelivery n g) s = .next (settle { s with
        edges := rest, events := late
        groups := s.groups.set g (some { x with staleCount := x.staleCount + 1 }) })) ∧
    (x.record.staleLimit ≠ 0 → x.staleCount + 1 = x.record.staleLimit →
      (x.safeImage = none →
        exec (.edgeDelivery n g) s = .next (settle { s with
          edges := rest
          groups := s.groups.set g (some { x with staleCount := x.record.staleLimit, state := .safe })
          events := late.raise
            { kind := .groupStale, group := some g, source := some n, epoch := some ep, detail := 0 } })) ∧
      (x.safeImage ≠ none → x.committing ≠ none →
        exec (.edgeDelivery n g) s = .next (settle { s with
          edges := rest
          groups := s.groups.set g (some { x with
            staleCount := x.record.staleLimit, state := .safe, pendingSafe := true })
          events := late.raise
            { kind := .groupStale, group := some g, source := some n, epoch := some ep, detail := 1 } })) ∧
      (x.safeImage ≠ none → x.committing = none →
        exec (.edgeDelivery n g) s = .next (settle { s with
          edges := rest
          groups := s.groups.set g (some { x with
            staleCount := x.record.staleLimit, state := .safe, pendingSafe := false, committing := some .safe })
          events := late.raise
            { kind := .groupStale, group := some g, source := some n, epoch := some ep, detail := 1 }
          engine := { s.engine with queue := s.engine.queue ++ [newImageJob .safe g x ep s] } })))

/-- An edge at an output group in SAFE: with the latch on it has no effect; with the latch off it commits an armed image and
recovers the group when no job is in flight, is behind when one is, and has no effect without an armed image.  At a group of
either kind in DRAINING, or at a group that is DISABLED, an edge has no effect. -/
def Obligations.EdgeInSafeOrDraining : Prop :=
  ∀ (n : SourceNo) (g : GroupNo) (s : State) (ep : BitVec 32) (rest : List Edge) (x : Group),
    s.resetAsserted = false → takeGroupOffer n g s.edges = some (ep, false, rest) → s.group g = some x →
    (x.state = .draining ∨ x.state = .disabled →
      exec (.edgeDelivery n g) s = .next (settle { s with edges := rest })) ∧
    (x.record.kind = .output → x.state = .safe → x.record.latch = true ∨ x.armed = none →
      exec (.edgeDelivery n g) s = .next (settle { s with edges := rest })) ∧
    (∀ img, x.record.kind = .output → x.state = .safe → x.record.latch = false → x.armed = some img →
      x.committing = none →
      exec (.edgeDelivery n g) s = .next (settle { s with
        edges := rest
        groups := s.groups.set g (some { x with
          state := .live, armed := none, committing := some (.commit img), staleCount := 0 })
        events := s.events.raise
          { kind := .groupRecovered, group := some g, source := some n, epoch := some ep, detail := 0 }
        engine := { s.engine with queue := s.engine.queue ++ [newImageJob .commit g x ep s] } })) ∧
    (∀ img, x.record.kind = .output → x.state = .safe → x.record.latch = false → x.armed = some img →
      x.committing ≠ none →
      exec (.edgeDelivery n g) s = .next (settle { s with
        edges := rest
        groups := s.groups.set g (some { x with
          behind := if x.behind = 0xFFFF then 0xFFFF else x.behind + 1 })
        events := s.events.raise
          { kind := .commitBehind, group := some g, source := some n, epoch := some ep, detail := 0 } }))

/-- An edge at a LIVE input group advances the hold, releasing it with HOLD_EXPIRED at the hold limit, and then queues a CAPTURE
job, or raises CAPTURE_BEHIND while a capture is in flight. -/
def Obligations.EdgeAtInputGroup : Prop :=
  ∀ (n : SourceNo) (g : GroupNo) (s : State) (ep : BitVec 32) (rest : List Edge) (x y : Group) (q : EventQueue),
    s.resetAsserted = false → takeGroupOffer n g s.edges = some (ep, false, rest) → s.group g = some x →
    x.record.kind = .input → x.state = .live →
    ((x.held = false → y = x ∧ q = s.events) ∧
      (x.held = true → ∀ c : Byte, c = (if x.holdCount = 0xFF then 0xFF else x.holdCount + 1) →
        (x.record.holdLimit = 0 ∨ c ≠ x.record.holdLimit → y = { x with holdCount := c } ∧ q = s.events) ∧
        (x.record.holdLimit ≠ 0 → c = x.record.holdLimit →
          q = s.events.raise { kind := .holdExpired, group := some g, source := some n, epoch := some ep,
                               detail := c.setWidth 16 } ∧
          (∀ b, x.back = .pending b →
            y = { x with holdCount := c, held := false, front := some b, back := .idle }) ∧
          ((∀ b, x.back ≠ .pending b) → y = { x with holdCount := c, held := false })))) →
    (x.captureInFlight = true →
      exec (.edgeDelivery n g) s = .next (settle { s with
        edges := rest
        groups := s.groups.set g (some y)
        events := q.raise
          { kind := .captureBehind, group := some g, source := some n, epoch := some ep, detail := 0 } })) ∧
    (x.captureInFlight = false →
      exec (.edgeDelivery n g) s = .next (settle { s with
        edges := rest
        groups := s.groups.set g (some { y with captureInFlight := true })
        events := q
        engine := { s.engine with queue := s.engine.queue ++ [{
          kind := .capture, group := g, count := 0, epoch := ep, bbm := false, margin := 0, marginExpired := false,
          phase := .capture, progress := 0, writingIssued := false, closingIssued := false, faulted := false,
          faultPosition := none, releaseData := none }] } }))

/-! ## The host path -/

/-- A request that arrives while another is inside the part, or while RESET_DEVICE executes, is held off at the host port; a
request whose last word would lie at or beyond the 64 MB limit is refused whole with FAULT and zero read data; and a request every
word of which is forwarded is one run: when the port is free and the engine has nothing to do it is issued as one memory request with
the same direction, address, lane enables and data.  A word is forwarded in four cases: PASS, a read of a SEQ-protected word, and a
write of an INPUT data word or a read of one while the group's front bank is EMPTY.  That what is held off waits in the part is the
model's choice (log 7). -/
def Obligations.HostRequestArrives : Prop :=
  (∀ (s : State) (d : Dir) (c : WordClass), forwarded s d c = true ↔
    c = .pass ∨ (∃ g, c = .seqProtected g ∧ d = .read) ∨ (∃ g off, c = .inputData g off ∧ d = .write) ∨
    ∃ g off, c = .inputData g off ∧ d = .read ∧ ∀ x ∈ s.group g, x.front = none) ∧
  (∀ (r : HostRequest) (s : State), s.resetAsserted = false → r.wellFormed = true →
    (s.resetting ≠ none ∨ ∃ a ∈ s.host.active, a.wait ≠ .nothing ∨ a.taken ∈ a.gaps) →
    exec (.hostRequest r) s = .next (settle { s with host := { s.host with waiting := s.host.waiting ++ [r] } })) ∧
  (∀ (r : HostRequest) (s : State), HostIdle s → r.wellFormed = true → 16777216 < r.addr.toNat + r.words.length →
    exec (.hostRequest r) s = .next (settle (hostAnswered .fault
      (if r.dir = .read then List.replicate r.words.length 0 else []) s))) ∧
  ∀ (r : HostRequest) (s : State), HostIdle s → r.wellFormed = true → r.addr.toNat + r.words.length ≤ 16777216 →
    (∀ k ∈ r.gaps, r.words.length < k) →
    s.port = none → s.engine.running = none → s.engine.queue = [] →
    (∀ k, k < r.words.length → forwarded s r.dir (classify s (r.addr + BitVec.ofNat 24 k)) = true) →
    exec (.hostRequest r) s = .next { s with
      host := { s.host with active := some {
        request := r.toPortRequest, taken := r.words.length, run := r.words, faulted := false, data := [], wait := .run
        gaps := r.gaps, joined := r.joined } }
      port := some { purpose := .run, request := r.toPortRequest }
      streak := 0 }

/-- A host request, word by word.  An accepted request, and one whose memory request has been answered, goes on: it stands at a gap,
or takes its next word.  A forwarded word joins the open run; a word that is not forwarded ends the run, which is asked for first,
and otherwise takes its effect; after the last word the open run is asked for, or the one response is returned, FAULT if any word was
refused or any answer was FAULT, with the read data in address order, and the request held off behind is accepted.  A faulted run
reads as zeros and a faulted layered read keeps the lanes composed from images.  Where the gaps stand is the outside's choice, and
what goes on within one step is the model's (logs 7 to 9). -/
def Obligations.LastAnswerEndsTheRequest : Prop :=
  (∀ (r : HostRequest) (s : State), HostIdle s → r.wellFormed = true → r.addr.toNat + r.words.length ≤ 16777216 →
    exec (.hostRequest r) s = .next (goesOn {
      request := r.toPortRequest, taken := 0, run := [], faulted := false, data := [], wait := .nothing, gaps := r.gaps, joined := r.joined } s)) ∧
  (∀ (s : State) (a : ActiveRequest) (q : PortRequest), s.resetAsserted = false → s.resetting = none →
    s.host.active = some a →
    (∀ (st : PortStatus) (data : List Word), s.port = some ⟨.run, q⟩ →
      (st = .okay → q.dir = .read → data.length = q.words.length) →
      exec (.runResponse st data) s = .next (goesOn
        { a with
          run := [], wait := .nothing, faulted := a.faulted || decide (st = .fault)
          data := a.data ++ (match a.request.dir, st with
            | .write, _ => []
            | .read, .okay => data
            | .read, .fault => List.replicate a.run.length 0) }
        { s with port := none })) ∧
    ∀ (st : PortStatus) (data image : Word) (lanes : Lanes), s.port = some ⟨.layered, q⟩ → a.wait = .layered image lanes →
      exec (.layeredReadResponse st data) s = .next (goesOn
        { a with
          taken := a.taken + 1, wait := .nothing, faulted := a.faulted || decide (st = .fault)
          data := a.data ++ [match st with
            | .okay => image ||| keepLanes data lanes
            | .fault => image] }
        { s with port := none })) ∧
  (∀ (s : State) (a b : ActiveRequest), s.resetAsserted = false → s.resetting = none → s.host.active = some a →
    a.wait = .nothing → a.request.words.length ≤ 16 → b = { a with gaps := a.gaps.filter (fun k => k != a.taken) } →
    (a.taken = a.request.words.length →
      (a.run ≠ [] → tick s = settle (withRequest { b with wait := .run } s)) ∧
      (a.run = [] → s.host.waiting = [] →
        tick s = settle (hostAnswered (if a.faulted then .fault else .okay) a.data s)) ∧
      ∀ r rest, a.run = [] → s.host.waiting = r :: rest → r.words.length ≤ 16 → r.addr.toNat + r.words.length ≤ 16777216 →
        tick s = goesOn
          { request := r.toPortRequest, taken := 0, run := [], faulted := false, data := [], wait := .nothing, gaps := r.gaps, joined := r.joined }
          { s with host := { active := none, waiting := rest, responses := s.host.responses ++
            [{ status := if a.faulted then .fault else .okay, data := a.data }] } }) ∧
    ∀ (w : PortWord) (c : WordClass), a.request.words[a.taken]? = some w →
      c = classify s (a.request.addr + BitVec.ofNat 24 a.taken) →
      (forwarded s a.request.dir c = true →
        tick s = goesOn { b with taken := a.taken + 1, run := a.run ++ [w] } s) ∧
      (forwarded s a.request.dir c = false → a.run ≠ [] → tick s = settle (withRequest { b with wait := .run } s)) ∧
      (a.run = [] → a.request.dir = .write →
        (∀ g off, c = .outputData g off → tick s = goesOn
          { b with taken := a.taken + 1, faulted := a.faulted || (stageWord g off w s).1 } (stageWord g off w s).2) ∧
        (∀ g off, c = .outputSeal g off → tick s = goesOn
          { b with taken := a.taken + 1, faulted := a.faulted || (stageWord g off w s).1 }
          (sealImage g (stageWord g off w s).2)) ∧
        (∀ g off, c = .draining g off ∨ c = .seqProtected g →
          tick s = goesOn { b with taken := a.taken + 1, faulted := true } s) ∧
        ∀ g off, c = .inputStamp g off → tick s = goesOn { b with taken := a.taken + 1 } (stampWrite g w s)) ∧
      (a.run = [] → a.request.dir = .read → ∀ g off x, s.group g = some x →
        (c = .outputData g off ∨ c = .outputSeal g off ∨ c = .draining g off →
          ((layeredLanes x off w.lanes).2 = 0 → tick s = goesOn
            { b with taken := a.taken + 1, data := a.data ++ [(layeredLanes x off w.lanes).1] } s) ∧
          ((layeredLanes x off w.lanes).2 ≠ 0 → tick s = settle (withRequest
            { b with wait := .layered (layeredLanes x off w.lanes).1 (layeredLanes x off w.lanes).2 } s))) ∧
        (∀ bank, c = .inputData g off → x.front = some bank → tick s = goesOn
          { b with taken := a.taken + 1, data := a.data ++ [keepLanes (bank.words.getD off.toNat 0) w.lanes] } s) ∧
        (c = .inputStamp g off → tick s = goesOn
          { b with taken := a.taken + 1, data := a.data ++ [keepLanes (stampWord x) w.lanes] } s))) ∧
  ∀ (s : State) (a : ActiveRequest) (q : PortRequest), s.resetAsserted = false → s.resetting = none →
    s.host.active = some a → s.host.waiting = [] → a.taken ∉ a.gaps → a.taken + 1 ∉ a.gaps →
    (∀ (st : PortStatus) (data : List Word), s.port = some ⟨.run, q⟩ → a.wait = .run →
      a.taken = a.request.words.length → (st = .okay → q.dir = .read → data.length = q.words.length) →
      exec (.runResponse st data) s = .next (settle (hostAnswered
        (if a.faulted = true ∨ st = .fault then .fault else .okay)
        (a.data ++ (match a.request.dir, st with
          | .write, _ => []
          | .read, .okay => data
          | .read, .fault => List.replicate a.run.length 0))
        { s with port := none }))) ∧
    ∀ (st : PortStatus) (data image : Word) (lanes : Lanes), s.port = some ⟨.layered, q⟩ → a.wait = .layered image lanes →
      a.run = [] → a.taken + 1 = a.request.words.length →
      exec (.layeredReadResponse st data) s = .next (settle (hostAnswered
        (if a.faulted = true ∨ st = .fault then .fault else .okay)
        (a.data ++ [match st with
          | .okay => image ||| keepLanes data lanes
          | .fault => image])
        { s with port := none }))

/-- A read of one word of an output group: each enabled lane comes from the newest image that holds it (filling, armed,
committing), a lane that is not enabled reads 0, and when an enabled lane is held by no image a one-word read of exactly those
lanes is asked for, at the word's own address, and granted a free port when the engine has nothing to do.  A read changes no image. -/
def Obligations.LayeredViewByLane : Prop :=
  (∀ (x : Group) (off : Byte) (lanes : Lanes) (i : Nat), i < 4 →
    ∀ holders : List Entry,
      holders = ((x.filling.bind (fun f => f.entries.find? (fun e => e.offset == off))).toList
        ++ (x.armed.bind (fun img => img.find? (fun e => e.offset == off))).toList
        ++ (x.jobImage.find? (fun e => e.offset == off)).toList).filter (fun e => e.lanes.getLsbD i) →
      ((layeredLanes x off lanes).2.getLsbD i = (lanes.getLsbD i && holders.isEmpty)) ∧
      laneByte (layeredLanes x off lanes).1 i =
        (if lanes.getLsbD i then holders.head?.elim 0 (fun e => laneByte e.data i) else 0)) ∧
  ∀ (a : WordAddr) (w : PortWord) (g : GroupNo) (off : Byte) (x : Group) (s : State), HostIdle s → w.data = 0 →
    s.group g = some x →
    (classify s a = .outputData g off ∨ classify s a = .outputSeal g off ∨ classify s a = .draining g off) →
    ((layeredLanes x off w.lanes).2 = 0 →
      exec (.hostRequest (oneWord .read a w)) s = .next (settle (hostAnswered .okay [(layeredLanes x off w.lanes).1] s))) ∧
    ((layeredLanes x off w.lanes).2 ≠ 0 →
      exec (.hostRequest (oneWord .read a w)) s = .next (settle { s with host := { s.host with active := some {
        request := ⟨.read, a, [w]⟩, taken := 0, run := [], faulted := false, data := [], gaps := [], joined := []
        wait := .layered (layeredLanes x off w.lanes).1 (layeredLanes x off w.lanes).2 } } }) ∧
      (s.port = none → s.engine.running = none → s.engine.queue = [] →
        ∃ t, exec (.hostRequest (oneWord .read a w)) s = .next t ∧
          t.port = some ⟨.layered, ⟨.read, a, [⟨(layeredLanes x off w.lanes).2, 0⟩]⟩⟩))

/-- The class of a host word, by its address and the state of the group whose range or sequence word it touches. -/
def Obligations.HostWordClasses : Prop :=
  ∀ (s : State) (a : WordAddr), RangeLaw s →
    (∀ (g : GroupNo) (x : Group) (k : Nat), s.group g = some x → k < x.record.length →
      4 * a.toNat = x.record.base.toNat + 4 * k →
      classify s a =
        (match x.state, x.record.kind with
          | .disabled, _ => .pass
          | .draining, .output => .draining g (BitVec.ofNat 8 k)
          | .live, .output | .safe, .output =>
            if k = x.record.sealOffset.toNat then .outputSeal g (BitVec.ofNat 8 k) else .outputData g (BitVec.ofNat 8 k)
          | .live, .input | .safe, .input | .draining, .input =>
            if x.record.stampOffset = some (BitVec.ofNat 8 k) then .inputStamp g (BitVec.ofNat 8 k)
            else .inputData g (BitVec.ofNat 8 k))) ∧
    (∀ (g : GroupNo) (x : Group) (q : BitVec 32), s.group g = some x → x.record.seqAddr = some q →
      4 * a.toNat = q.toNat → classify s a = if x.state = .disabled then .pass else .seqProtected g) ∧
    ((∀ (g : GroupNo) (x : Group), s.group g = some x → x.state ≠ .disabled →
        ¬ InRange x.record.base.toNat x.record.length (4 * a.toNat) ∧ ∀ q ∈ x.record.seqAddr, q.toNat ≠ 4 * a.toNat) →
      classify s a = .pass)

/-- A one-word write of class OUTPUT data: with no lane enabled it stages nothing; to an offset the filling image holds it
merges its lanes; to a new offset it takes a stage entry at the end of the list; with the pool empty it is refused, the filling
image is marked damaged, and POOL_EXHAUSTED is raised if it was not.  It reaches no memory.  Merging takes the enabled lanes from
the new word and the others from the old one. -/
def Obligations.HostWriteIsStaged : Prop :=
  (∀ (old new : Word) (l : Lanes) (i : Nat), i < 4 →
    laneByte (mergeLanes old new l) i = if l.getLsbD i then laneByte new i else laneByte old i) ∧
  ∀ (s : State) (a : WordAddr) (w : PortWord) (g : GroupNo) (off : Byte) (x : Group) (f : Filling), HostIdle s →
    classify s a = .outputData g off → s.group g = some x → f = x.filling.getD { entries := [], damaged := false } →
    (w.lanes = 0 →
      exec (.hostRequest (oneWord .write a w)) s = .next (settle (hostAnswered .okay [] s))) ∧
    (w.lanes ≠ 0 → (∃ e ∈ f.entries, e.offset = off) →
      exec (.hostRequest (oneWord .write a w)) s = .next (settle (hostAnswered .okay [] { s with
        groups := s.groups.set g (some { x with filling := some { f with
          entries := f.entries.map (fun e =>
            if e.offset = off then ⟨e.offset, mergeLanes e.data w.data w.lanes, e.lanes ||| w.lanes⟩ else e) } }) }))) ∧
    (∀ n, w.lanes ≠ 0 → (∀ e ∈ f.entries, e.offset ≠ off) → s.freeStage = n + 1 →
      exec (.hostRequest (oneWord .write a w)) s = .next (settle (hostAnswered .okay [] { s with
        freeStage := n
        groups := s.groups.set g (some { x with filling := some { f with
          entries := f.entries ++ [⟨off, w.data, w.lanes⟩] } }) }))) ∧
    (w.lanes ≠ 0 → (∀ e ∈ f.entries, e.offset ≠ off) → s.freeStage = 0 →
      exec (.hostRequest (oneWord .write a w)) s = .next (settle (hostAnswered .fault [] { s with
        groups := s.groups.set g (some { x with filling := some { f with damaged := true } })
        events := if f.damaged then s.events else s.events.raise
          { kind := .poolExhausted, group := some g, source := none, epoch := none, detail := off.setWidth 16 } })))

/-- A write to the seal word stages the word and seals the filling image in one claim; and what a seal does, by the damaged flag,
the armed slot and the seal policy: discard, arm, coalesce or reject, with the entries returned, the counter and the event. -/
def Obligations.SealActsByTheTable : Prop :=
  (∀ (s : State) (a : WordAddr) (w : PortWord) (g : GroupNo) (off : Byte), HostIdle s → classify s a = .outputSeal g off →
    exec (.hostRequest (oneWord .write a w)) s = .next (settle (hostAnswered
      (if (stageWord g off w s).1 then .fault else .okay) [] (sealImage g (stageWord g off w s).2)))) ∧
  ∀ (g : GroupNo) (x : Group) (s : State), s.group g = some x →
    (x.filling = none → sealImage g s = s) ∧
    ∀ f, x.filling = some f →
      (f.damaged = true → sealImage g s = { s with
        freeStage := s.freeStage + f.entries.length
        groups := s.groups.set g (some { x with
          filling := none, damaged := if x.damaged = 0xFFFF then 0xFFFF else x.damaged + 1 })
        events := s.events.raise { kind := .imageDamaged, group := some g, source := none, epoch := none,
                                   detail := BitVec.ofNat 16 f.entries.length } }) ∧
      (f.damaged = false → x.armed = none → sealImage g s = { s with
        groups := s.groups.set g (some { x with filling := none, armed := some f.entries }) }) ∧
      (∀ img, f.damaged = false → x.armed = some img → x.record.policy = .reject → sealImage g s = { s with
        freeStage := s.freeStage + f.entries.length
        groups := s.groups.set g (some { x with
          filling := none, rejected := if x.rejected = 0xFFFF then 0xFFFF else x.rejected + 1 })
        events := s.events.raise { kind := .sealRejected, group := some g, source := none, epoch := none,
                                   detail := BitVec.ofNat 16 f.entries.length } }) ∧
      ∀ img m, f.damaged = false → x.armed = some img → x.record.policy = .coalesce → m = Image.coalesce img f.entries →
        sealImage g s = { s with
          freeStage := s.freeStage + (img.length + f.entries.length - m.length)
          groups := s.groups.set g (some { x with
            filling := none, armed := some m, coalesced := if x.coalesced = 0xFFFF then 0xFFFF else x.coalesced + 1 })
          events := s.events.raise { kind := .sealCoalesced, group := some g, source := none, epoch := none,
                                     detail := BitVec.ofNat 16 m.length } }

/-- Coalescing: the armed entries keep their places, the filling entries with new offsets follow in their order, so of f filling
and a armed entries with d offsets in common a + f - d remain; an entry held by both takes the filling entry's lanes and the
union of the masks, and every other entry is as it was. -/
def Obligations.CoalesceMergesByOffset : Prop :=
  ∀ armed filling : Image, (armed.map Entry.offset).Nodup → (filling.map Entry.offset).Nodup →
    (Image.coalesce armed filling).map Entry.offset =
      armed.map Entry.offset ++ (filling.map Entry.offset).filter (fun o => !(armed.map Entry.offset).contains o) ∧
    (Image.coalesce armed filling).length + (filling.filter (fun e => (armed.map Entry.offset).contains e.offset)).length =
      armed.length + filling.length ∧
    ∀ off : Byte,
      Image.entryAt (Image.coalesce armed filling) off =
        (match Image.entryAt armed off, Image.entryAt filling off with
          | some d, some e => some ⟨off, mergeLanes d.data e.data e.lanes, d.lanes ||| e.lanes⟩
          | some d, none => some d
          | none, some e => some e
          | none, none => none)

/-- The one-word accesses that need no stage entry and no memory: a write of class DRAINING or SEQ-protected is refused and
changes nothing, a read of an INPUT data word is served from the front bank, a read of the stamp word is composed with EMPTY, HELD
and PENDING in bits 31 to 29 and the low 29 bits of the front epoch below them, and a write of the stamp word holds or releases
the group by bit 0 when lane 0 is enabled.  A lane that is not enabled reads 0. -/
def Obligations.WordsServedWithoutMemory : Prop :=
  (∀ (w : Word) (l : Lanes) (i : Nat), i < 4 →
    laneByte (keepLanes w l) i = if l.getLsbD i then laneByte w i else 0) ∧
  ∀ (s : State) (a : WordAddr) (w : PortWord) (g : GroupNo) (off : Byte) (x : Group), HostIdle s → s.group g = some x →
    (classify s a = .draining g off ∨ classify s a = .seqProtected g →
      exec (.hostRequest (oneWord .write a w)) s = .next (settle (hostAnswered .fault [] s))) ∧
    (∀ b, classify s a = .inputData g off → w.data = 0 → x.front = some b →
      exec (.hostRequest (oneWord .read a w)) s =
        .next (settle (hostAnswered .okay [keepLanes (b.words.getD off.toNat 0) w.lanes] s))) ∧
    (classify s a = .inputStamp g off → w.data = 0 →
      ∃ stamp : Word, exec (.hostRequest (oneWord .read a w)) s =
          .next (settle (hostAnswered .okay [keepLanes stamp w.lanes] s)) ∧
        stamp.getLsbD 31 = x.front.isNone ∧ stamp.getLsbD 30 = x.held ∧ stamp.getLsbD 29 = x.back.isPending ∧
        stamp.toNat % 2 ^ 29 = x.front.elim 0 (fun b => b.epoch.toNat % 2 ^ 29)) ∧
    (classify s a = .inputStamp g off →
      (w.lanes.getLsbD 0 = false →
        exec (.hostRequest (oneWord .write a w)) s = .next (settle (hostAnswered .okay [] s))) ∧
      (w.lanes.getLsbD 0 = true → w.data.getLsbD 0 = true →
        exec (.hostRequest (oneWord .write a w)) s = .next (settle (hostAnswered .okay [] { s with
          groups := s.groups.set g (some { x with held := true, holdCount := 0 }) }))) ∧
      (∀ b, w.lanes.getLsbD 0 = true → w.data.getLsbD 0 = false → x.state = .live → x.held = true → x.back = .pending b →
        exec (.hostRequest (oneWord .write a w)) s = .next (settle (hostAnswered .okay [] { s with
          groups := s.groups.set g (some { x with held := false, front := some b, back := .idle }) }))) ∧
      (w.lanes.getLsbD 0 = true → w.data.getLsbD 0 = false →
        (x.state ≠ .live ∨ x.held = false ∨ ∀ b, x.back ≠ .pending b) →
        exec (.hostRequest (oneWord .write a w)) s = .next (settle (hostAnswered .okay [] { s with
          groups := s.groups.set g (some { x with held := false }) }))))

/-! ## The commit engine -/

/-- The next memory request of a running job, phase by phase: the opening write of a group with a sequence word, one data write
or release pair for each entry in list order, the closing write with TORN for a faulted job; and capture bursts of 16 words or of
the words that remain. -/
def Obligations.JobRequestOrder : Prop :=
  ∀ (j : Job) (x : Group),
    (j.phase = .capture →
      (j.progress < x.record.length → nextRequest j x = some ⟨.burst, ⟨.read,
        BitVec.ofNat 24 (x.record.base.toNat / 4 + j.progress),
        List.replicate (min 16 (x.record.length - j.progress)) ⟨0xF, 0⟩⟩⟩) ∧
      (x.record.length ≤ j.progress → nextRequest j x = none)) ∧
    (∀ q, (j.phase = .plain ∨ j.phase = .release) → x.record.seqAddr = some q → j.writingIssued = false →
      nextRequest j x = some ⟨.opening, ⟨.write, BitVec.ofNat 24 (q.toNat / 4), [⟨0xF, 0b01#2 ++ j.count⟩]⟩⟩) ∧
    (j.phase = .engage ∨ j.phase = .plain ∧ (x.record.seqAddr = none ∨ j.writingIssued = true) →
      (∀ e, x.jobImage[j.progress]? = some e → nextRequest j x = some ⟨.dataWrite, ⟨.write,
        BitVec.ofNat 24 (x.record.base.toNat / 4 + e.offset.toNat), [⟨e.lanes, e.data⟩]⟩⟩) ∧
      (x.jobImage.length ≤ j.progress → x.record.seqAddr = none → nextRequest j x = none) ∧
      (∀ q, x.jobImage.length ≤ j.progress → x.record.seqAddr = some q → nextRequest j x = some ⟨.closing, ⟨.write,
        BitVec.ofNat 24 (q.toNat / 4), [⟨0xF, (if j.faulted then 0b10#2 else 0b00#2) ++ j.count⟩]⟩⟩)) ∧
    (j.phase = .release → (x.record.seqAddr = none ∨ j.writingIssued = true) →
      (∀ e, x.jobImage[j.progress]? = some e → j.releaseData = none → nextRequest j x = some ⟨.releaseRead, ⟨.read,
        BitVec.ofNat 24 (x.record.base.toNat / 4 + e.offset.toNat), [⟨e.lanes, 0⟩]⟩⟩) ∧
      (∀ e w, x.jobImage[j.progress]? = some e → j.releaseData = some w → nextRequest j x = some ⟨.releaseWrite, ⟨.write,
        BitVec.ofNat 24 (x.record.base.toNat / 4 + e.offset.toNat), [⟨e.lanes, w⟩]⟩⟩) ∧
      (x.jobImage.length ≤ j.progress → nextRequest j x = none))

/-- The grant of the memory port: nothing while a request is outstanding; otherwise by the table of the arbiter, with the streak
raised, or set to 0, as it says; a grant to the engine notes that the running job's opening or closing write has been issued (log
19).  An engine request and a host-path request that arrive together at a free port are both waiting when the grant is made: the
host path's arrives with the engine's where its request stands at a joined gap and asks for the port next, and does not where it
takes a word first, or has only its response to return; the engine alone is then granted.  That the outside chooses which arrive
together is the model's (log 27).  The engine asks for its running job's next request, the host path for its open run or its
layered read.  The end of a step, whose order is the model's (log 9), changes nothing outside the engine, the groups of its running and queued jobs, the stores they
return to, the offers to groups that become DISABLED, the events, the port and what a request at a joined gap waits for. -/
def Obligations.ArbiterTable : Prop :=
  (∀ s : State,
    (s.port ≠ none → arbitrate s = s) ∧
    (s.port = none → s.engineAsk = none → s.hostAsk = none → arbitrate s = s) ∧
    (∀ u, s.port = none → s.engineAsk = some u →
      (s.hostAsk = none → (arbitrate s).port = some u ∧ (arbitrate s).streak = 0) ∧
      (s.hostAsk ≠ none → s.streak < 8 → (arbitrate s).port = some u ∧ (arbitrate s).streak = s.streak + 1) ∧
      (s.hostAsk = none ∨ s.streak < 8 → (arbitrate s).engine = { s.engine with
        running := s.engine.running.map (fun j =>
          if u.purpose = .opening then { j with writingIssued := true }
          else if u.purpose = .closing then { j with closingIssued := true }
          else j) })) ∧
    (∀ v, s.port = none → s.hostAsk = some v → (s.engineAsk = none ∨ s.streak = 8) →
      (arbitrate s).port = some v ∧ (arbitrate s).streak = 0 ∧ (arbitrate s).engine = s.engine) ∧
    arbitrate s = { s with port := (arbitrate s).port, streak := (arbitrate s).streak, engine := (arbitrate s).engine }) ∧
  (∀ (s : State) (a : ActiveRequest) (u : PortUse) (ask : Option HostWait), s.port = none → s.resetting = none →
    s.host.active = some a → a.wait = .nothing → a.taken ∈ a.gaps → a.taken ∈ a.joined → s.engineAsk = some u →
    ask = (match a.request.words[a.taken]? with
      | none => if a.run = [] then none else some .run
      | some w =>
        let c := classify s (a.request.addr + BitVec.ofNat 24 a.taken)
        if forwarded s a.request.dir c = true then none
        else if a.run ≠ [] then some .run
        else
          match a.request.dir, c with
          | .read, .outputData g off | .read, .outputSeal g off | .read, .draining g off =>
            if (s.layered g off w.lanes).2 = 0 then none
            else some (.layered (s.layered g off w.lanes).1 (s.layered g off w.lanes).2)
          | _, _ => none) →
    (ask = none → (settle s).port = some u ∧ (settle s).streak = 0 ∧ (settle s).host = s.host) ∧
    ∀ h, ask = some h →
      (s.streak < 8 → (settle s).port = some u ∧ (settle s).streak = s.streak + 1) ∧
      (s.streak = 8 → (settle s).streak = 0 ∧ (settle s).port = (match h with
        | .nothing => none
        | .run => some ⟨.run, ⟨a.request.dir, a.request.addr + BitVec.ofNat 24 (a.taken - a.run.length), a.run⟩⟩
        | .layered _ lanes => some ⟨.layered, ⟨.read, a.request.addr + BitVec.ofNat 24 a.taken, [⟨lanes, 0⟩]⟩⟩)) ∧
      (settle s).host = { s.host with active := some { a with
        wait := h, gaps := a.gaps.filter (fun k => k != a.taken) } }) ∧
  (∀ (s : State) (a : ActiveRequest), s.host.active = none ∨ s.host.active = some a ∧
      (s.port ≠ none ∨ s.resetting ≠ none ∨ a.wait ≠ .nothing ∨ a.taken ∉ a.gaps ∨ a.taken ∉ a.joined) →
    (settle s).host = s.host) ∧
  (∀ s : State, s.resetting = none →
    (∀ j x, s.engine.running = some j → s.group j.group = some x → s.engineAsk = nextRequest j x) ∧
    (s.engine.running = none → s.engineAsk = none) ∧
    (s.host.active = none → s.hostAsk = none) ∧
    ∀ a, s.host.active = some a → s.hostAsk = (match a.wait with
      | .nothing => none
      | .run => some ⟨.run, ⟨a.request.dir, a.request.addr + BitVec.ofNat 24 (a.taken - a.run.length), a.run⟩⟩
      | .layered _ lanes => some ⟨.layered, ⟨.read, a.request.addr + BitVec.ofNat 24 a.taken, [⟨lanes, 0⟩]⟩⟩)) ∧
  (∀ (s : State) (g : GroupNo),
    (s.group g = none → (settle s).group g = none) ∧
    ((∀ j ∈ s.engine.running.toList ++ s.engine.queue, j.group ≠ g) → (settle s).group g = s.group g) ∧
    ∀ x, s.group g = some x → ∃ y, (settle s).group g = some y ∧
      (y.state = x.state ∨ x.state = .draining ∧ y.state = .disabled) ∧
      y = { x with
        state := y.state, committing := y.committing, pendingSafe := y.pendingSafe, seqCount := y.seqCount
        front := y.front, back := y.back, captureInFlight := y.captureInFlight, held := y.held }) ∧
  (∀ s : State, (settle s).edges = s.edges.map (fun e => { e with groups := e.groups.map (fun o =>
    if (s.group o.group).map Group.state ≠ ((settle s).group o.group).map Group.state then ⟨o.group, true⟩ else o) })) ∧
  ∀ s : State, settle s = { s with
    groups := (settle s).groups, freeStage := (settle s).freeStage, freeSnapshot := (settle s).freeSnapshot
    edges := (settle s).edges, engine := (settle s).engine, streak := (settle s).streak, port := (settle s).port
    events := (settle s).events, host := (settle s).host }

/-- At the end of a step the engine never stands still without cause: outside RESET_DEVICE, when it waits for no answer of its
own, either it holds a running job and the port is taken, or nothing runs and no job waits in the queue; and a port that is free
is asked for by nobody (the grant at the end of a step is the model's choice, logs 9 and 27).  And it goes on job by job: the head of the
queue enters the running position, where a capture makes its group's back bank FILLING whatever it held; a job with no release pair
left turns to ENGAGE from its first entry, on the queue's tail or the margin list; and a job of a group with no sequence word
closes after its last data write, with COMMIT_FAULT if it faulted and its completion taken by the group. -/
def Obligations.EngineNeverStalls : Prop :=
  (∀ s : State, s.engineBusy = false → s.resetting = none → s.engine.running = none →
    ∀ j rest, s.engine.queue = j :: rest →
      (j.kind ≠ .capture →
        settle s = settle { s with engine := { s.engine with queue := rest, running := some j } }) ∧
      ∀ x, j.kind = .capture → s.group j.group = some x → x.record.kind = .input →
        settle s = settle { s with
          engine := { s.engine with queue := rest, running := some j }
          groups := s.groups.set j.group (some { x with back := .filling [] }) }) ∧
  (∀ (s : State) (j : Job) (x : Group), s.engineBusy = false → s.resetting = none → s.engine.running = some j →
    s.group j.group = some x → x.jobImage.length ≤ j.progress →
    (j.phase = .release → (x.record.seqAddr = none ∨ j.writingIssued = true) →
      (j.marginExpired = true → settle s = settle { s with engine := { s.engine with
        running := none, queue := s.engine.queue ++ [{ j with phase := .engage, progress := 0 }] } }) ∧
      (j.marginExpired = false → settle s = settle { s with engine := { s.engine with
        running := none, marginList := s.engine.marginList ++ [{ j with phase := .engage, progress := 0 }] } })) ∧
    ∀ (raised : EventQueue) (n : Nat), (j.phase = .plain ∨ j.phase = .engage) → x.record.seqAddr = none →
      x.record.kind = .output →
      raised = (if j.faulted = true then s.events.raise
          { kind := .commitFault, group := some j.group, source := none, epoch := some j.epoch
            detail := match j.faultPosition with
              | some (.offset o) => o.setWidth 16
              | some .sequenceWord => 0xFFFF
              | none => 0 }
        else s.events) →
      n = (match x.committing with
        | some (.commit img) => img.length
        | some .safe => 0
        | none => 0) →
      (x.state = .live ∨ x.state = .safe ∧ x.pendingSafe = false →
        settle s = settle { s with
          freeStage := s.freeStage + n, events := raised, engine := { s.engine with running := none }
          groups := s.groups.set j.group (some { x with seqCount := j.count, committing := none }) }) ∧
      (x.state = .safe → x.pendingSafe = true →
        settle s = settle { s with
          freeStage := s.freeStage + n, events := raised
          engine := { s.engine with
            running := none
            queue := s.engine.queue ++ [{
              kind := .safe, group := j.group, count := j.count + 1, epoch := (s.source x.record.source).epoch
              bbm := x.record.bbm, margin := if x.record.bbm then s.marginOf x.record.source else 0
              marginExpired := x.record.bbm && decide (s.marginOf x.record.source = 0)
              phase := if x.record.bbm then .release else .plain, progress := 0, writingIssued := false
              closingIssued := false, faulted := false, faultPosition := none, releaseData := none }] }
          groups := s.groups.set j.group (some
            { x with seqCount := j.count, committing := some .safe, pendingSafe := false }) }) ∧
      (x.state = .draining →
        settle s = settle { s with
          freeStage := s.freeStage + n, engine := { s.engine with running := none }
          edges := voidedForGroup j.group s.edges
          events := raised.raise
            { kind := .groupDrained, group := some j.group, source := none, epoch := none, detail := 0 }
          groups := s.groups.set j.group (some
            { x with seqCount := j.count, committing := none, state := .disabled }) })) ∧
  ∀ s : State, s.engineBusy = false → s.resetting = none →
    ((settle s).engine.running = none → (settle s).engine.queue = []) ∧
    ((settle s).port = none →
      (settle s).engine.running = none ∧ (settle s).engineAsk = none ∧ (settle s).hostAsk = none)

/-- The answers to the opening write, the data writes and the release pairs of the running job: progress moves to the next entry, a
FAULT sets the faulted flag and the first fault position, a release write carries the word read ANDed with the entry's word, and
a faulted release read skips its write. -/
def Obligations.JobAnswers : Prop :=
  ∀ (s : State) (j : Job) (q : PortRequest) (x : Group), s.resetAsserted = false → s.resetting = none →
    s.engine.running = some j → s.group j.group = some x →
    (s.port = some ⟨.opening, q⟩ →
      exec (.openingWriteResponse .okay) s = .next (settle { s with port := none }) ∧
      exec (.openingWriteResponse .fault) s = .next (settle { s with
        port := none
        engine := { s.engine with running := some { j with
          faulted := true, faultPosition := some (j.faultPosition.getD .sequenceWord) } } })) ∧
    ∀ e, x.jobImage[j.progress]? = some e →
      (s.port = some ⟨.dataWrite, q⟩ →
        exec (.dataWriteResponse .okay) s = .next (settle { s with
          port := none
          engine := { s.engine with running := some { j with progress := j.progress + 1 } } }) ∧
        exec (.dataWriteResponse .fault) s = .next (settle { s with
          port := none
          engine := { s.engine with running := some { j with
            progress := j.progress + 1, faulted := true
            faultPosition := some (j.faultPosition.getD (.offset e.offset)) } } })) ∧
      (s.port = some ⟨.releaseRead, q⟩ →
        (∀ data, exec (.releaseReadResponse .okay data) s = .next (settle { s with
          port := none
          engine := { s.engine with running := some { j with releaseData := some (data &&& e.data) } } })) ∧
        (∀ data, exec (.releaseReadResponse .fault data) s = .next (settle { s with
          port := none
          engine := { s.engine with running := some { j with
            progress := j.progress + 1, releaseData := none, faulted := true
            faultPosition := some (j.faultPosition.getD (.offset e.offset)) } } }))) ∧
      (s.port = some ⟨.releaseWrite, q⟩ →
        exec (.releaseWriteResponse .okay) s = .next (settle { s with
          port := none
          engine := { s.engine with running := some { j with progress := j.progress + 1, releaseData := none } } }) ∧
        exec (.releaseWriteResponse .fault) s = .next (settle { s with
          port := none
          engine := { s.engine with running := some { j with
            progress := j.progress + 1, releaseData := none, faulted := true
            faultPosition := some (j.faultPosition.getD (.offset e.offset)) } } }))

/-- The answer to the closing write ends the close: the job is gone, COMMIT_FAULT is raised first if the job faulted (at this
write too), and the group takes the completion: the seq count becomes the job's count, the committing slot is absent, its stage
entries are free, a DRAINING group becomes DISABLED with GROUP_DRAINED, and a pending SAFE job is created with the source's
epoch number. -/
def Obligations.ClosingCompletes : Prop :=
  ∀ (s : State) (j : Job) (q : PortRequest) (x : Group) (st : PortStatus) (d : BitVec 16) (raised : EventQueue)
    (n : Nat),
    s.resetAsserted = false → s.resetting = none → s.engine.running = some j → s.port = some ⟨.closing, q⟩ →
    s.group j.group = some x → x.record.kind = .output →
    d = (match j.faultPosition with
      | some (.offset o) => o.setWidth 16
      | some .sequenceWord => 0xFFFF
      | none => if st = .fault then 0xFFFF else 0) →
    raised = (if j.faulted = true ∨ st = .fault then
        s.events.raise { kind := .commitFault, group := some j.group, source := none, epoch := some j.epoch, detail := d }
      else s.events) →
    n = (match x.committing with
      | some (.commit img) => img.length
      | some .safe => 0
      | none => 0) →
    (x.state = .live ∨ x.state = .safe ∧ x.pendingSafe = false →
      exec (.closingWriteResponse st) s = .next (settle { s with
        port := none, freeStage := s.freeStage + n, events := raised, engine := { s.engine with running := none }
        groups := s.groups.set j.group (some { x with seqCount := j.count, committing := none }) })) ∧
    (x.state = .safe → x.pendingSafe = true →
      exec (.closingWriteResponse st) s = .next (settle { s with
        port := none, freeStage := s.freeStage + n, events := raised
        engine := { s.engine with
          running := none
          queue := s.engine.queue ++ [{
            kind := .safe, group := j.group, count := j.count + 1, epoch := (s.source x.record.source).epoch
            bbm := x.record.bbm, margin := if x.record.bbm then s.marginOf x.record.source else 0
            marginExpired := x.record.bbm && decide (s.marginOf x.record.source = 0)
            phase := if x.record.bbm then .release else .plain, progress := 0, writingIssued := false
            closingIssued := false, faulted := false, faultPosition := none, releaseData := none }] }
        groups := s.groups.set j.group (some
          { x with seqCount := j.count, committing := some .safe, pendingSafe := false }) })) ∧
    (x.state = .draining →
      exec (.closingWriteResponse st) s = .next (settle { s with
        port := none, freeStage := s.freeStage + n, engine := { s.engine with running := none }
        edges := voidedForGroup j.group s.edges
        events := raised.raise
          { kind := .groupDrained, group := some j.group, source := none, epoch := none, detail := 0 }
        groups := s.groups.set j.group (some
          { x with seqCount := j.count, committing := none, state := .disabled }) }))

/-- A plain COMMIT job of a LIVE group that runs alone, whatever the memory answers: its memory requests are the opening write
(of a group with a sequence word), one write for each entry in list order with the entry's mask, and the closing write, STABLE or
TORN; and when the last is answered the job is complete, its stage entries are free, the seq count is the job's count, and
COMMIT_FAULT stands in the queue with the first position that faulted, if any did. -/
def Obligations.PlainCommitWritesItsImage : Prop :=
  ∀ (s : State) (j : Job) (x : Group) (img : Image) (answers : List PortStatus),
    s.resetAsserted = false → s.resetting = none → s.host.active = none → s.port = none →
    s.engine.queue = [] → s.engine.running = some j → s.group j.group = some x →
    j.phase = .plain → j.progress = 0 → j.writingIssued = false → j.closingIssued = false → j.faulted = false →
    j.faultPosition = none → x.record.kind = .output → x.state = .live → x.committing = some (.commit img) → img ≠ [] →
    answers.length = img.length →
    (x.record.seqAddr = none →
      plainTrace answers (settle s) =
        (img.map (fun e => ⟨.write, BitVec.ofNat 24 (x.record.base.toNat / 4 + e.offset.toNat), [⟨e.lanes, e.data⟩]⟩),
        { s with
          streak := 0, freeStage := s.freeStage + img.length, engine := { s.engine with running := none }
          groups := s.groups.set j.group (some { x with seqCount := j.count, committing := none })
          events := match (answers.zip img).find? (fun p => decide (p.1 = .fault)) with
            | some p => s.events.raise { kind := .commitFault, group := some j.group, source := none,
                                         epoch := some j.epoch, detail := p.2.offset.setWidth 16 }
            | none => s.events })) ∧
    ∀ q opening closing, x.record.seqAddr = some q →
      plainTrace (opening :: answers ++ [closing]) (settle s) =
        ([⟨.write, BitVec.ofNat 24 (q.toNat / 4), [⟨0xF, 0b01#2 ++ j.count⟩]⟩]
          ++ img.map (fun e => ⟨.write, BitVec.ofNat 24 (x.record.base.toNat / 4 + e.offset.toNat), [⟨e.lanes, e.data⟩]⟩)
          ++ [⟨.write, BitVec.ofNat 24 (q.toNat / 4),
              [⟨0xF, (if .fault ∈ opening :: answers then 0b10#2 else 0b00#2) ++ j.count⟩]⟩],
        { s with
          streak := 0, freeStage := s.freeStage + img.length, engine := { s.engine with running := none }
          groups := s.groups.set j.group (some { x with seqCount := j.count, committing := none })
          events :=
            match ((opening, 0xFFFF#16) :: answers.zip (img.map (fun e => e.offset.setWidth 16)) ++ [(closing, 0xFFFF#16)]).find?
              (fun p => decide (p.1 = .fault)) with
            | some p => s.events.raise { kind := .commitFault, group := some j.group, source := none,
                                         epoch := some j.epoch, detail := p.2 }
            | none => s.events })

/-- The answer to a capture burst: OKAY places the words at the end of the filling bank and moves the progress past them, and the
last burst completes the capture, into the front bank or, held, into a PENDING back bank with the job's epoch; FAULT ends the
capture with CAPTURE_FAULT at the burst's first offset and an IDLE back bank; and either way a DRAINING group becomes DISABLED
with GROUP_DRAINED and its banks free. -/
def Obligations.CaptureBurst : Prop :=
  ∀ (s : State) (j : Job) (q : PortRequest) (x : Group) (ws : List Word), s.resetAsserted = false → s.resetting = none →
    s.engine.running = some j → s.port = some ⟨.burst, q⟩ → s.group j.group = some x → x.record.kind = .input →
    x.back = .filling ws → j.phase = .capture →
    (∀ data, data.length = q.words.length →
      exec (.captureBurstResponse .okay data) s = .next (settle { s with
        port := none
        engine := { s.engine with running := some { j with progress := j.progress + data.length } }
        groups := s.groups.set j.group (some { x with back := .filling (ws ++ data) }) })) ∧
    (∀ data, data.length = q.words.length → x.record.length ≤ j.progress + data.length → s.host.active = none →
      s.engine.queue = [] →
      (x.state = .live →
        exec (.captureBurstResponse .okay data) s = .next { s with
          port := none
          engine := { s.engine with running := none }
          groups := s.groups.set j.group (some (if x.held then
              { x with captureInFlight := false, back := .pending ⟨j.epoch, ws ++ data⟩ }
            else { x with captureInFlight := false, front := some ⟨j.epoch, ws ++ data⟩, back := .idle })) }) ∧
      (x.state = .draining →
        exec (.captureBurstResponse .okay data) s = .next { s with
          port := none
          engine := { s.engine with running := none }
          groups := s.groups.set j.group (some
            { x with state := .disabled, captureInFlight := false, front := none, back := .idle, held := false })
          edges := voidedForGroup j.group s.edges
          freeSnapshot := s.freeSnapshot + 2 * x.record.length
          events := s.events.raise
            { kind := .groupDrained, group := some j.group, source := none, epoch := none, detail := 0 } })) ∧
    ∀ data f, f = s.events.raise { kind := .captureFault, group := some j.group, source := none, epoch := some j.epoch,
                                   detail := BitVec.ofNat 16 j.progress } →
      (x.state = .live →
        exec (.captureBurstResponse .fault data) s = .next (settle { s with
          port := none
          engine := { s.engine with running := none }
          groups := s.groups.set j.group (some { x with captureInFlight := false, back := .idle })
          events := f })) ∧
      (x.state = .draining →
        exec (.captureBurstResponse .fault data) s = .next (settle { s with
          port := none
          engine := { s.engine with running := none }
          groups := s.groups.set j.group (some
            { x with state := .disabled, captureInFlight := false, front := none, back := .idle, held := false })
          edges := voidedForGroup j.group s.edges
          freeSnapshot := s.freeSnapshot + 2 * x.record.length
          events := f.raise
            { kind := .groupDrained, group := some j.group, source := none, epoch := none, detail := 0 } }))

/-- MARGIN_EXPIRY of a group's BBM job, in each place it can stand: a running or queued job keeps its place with the flag set; a
job on the margin list goes to the tail of the queue with the flag set; and with no such timer running nothing changes (DEDUCED,
log 4). -/
def Obligations.MarginExpiry : Prop :=
  ∀ (s : State) (g : GroupNo), s.resetAsserted = false → (s.engine.jobs.map Job.group).Nodup →
    (∀ j, s.engine.running = some j → j.group = g → j.bbm = true → j.marginExpired = false →
      exec (.marginExpiry g) s = .next (settle { s with
        engine := { s.engine with running := some { j with marginExpired := true } } })) ∧
    (∀ before j after, s.engine.queue = before ++ j :: after → j.group = g → j.bbm = true → j.marginExpired = false →
      exec (.marginExpiry g) s = .next (settle { s with
        engine := { s.engine with queue := before ++ { j with marginExpired := true } :: after } })) ∧
    (∀ before j after, s.engine.marginList = before ++ j :: after → j.group = g → j.bbm = true →
      j.marginExpired = false →
      exec (.marginExpiry g) s = .next (settle { s with
        engine := { s.engine with
          queue := s.engine.queue ++ [{ j with marginExpired := true }]
          marginList := before ++ after } })) ∧
    ((∀ j ∈ s.engine.jobs, j.group = g → j.bbm = false ∨ j.marginExpired = true) →
      exec (.marginExpiry g) s = .next s)

/-! ## Group commands -/

/-- DEFINE_GROUP: a group number above 31 answers BAD_ARGUMENT; a group that is enabled answers WRONG_STATE; on an UNDEFINED or
DISABLED slot a failing check answers BAD_ARGUMENT, with nothing changed; and when every check passes the slot holds the record
alone, DISABLED, with every count 0 and no image, the safe entries of a former safe image are free, and nothing else changes. -/
def Obligations.DefineGroup : Prop :=
  ∀ (tag : Byte) (f : GroupFields) (s : State), LinkReady s → RangeLaw s →
    (31 < f.group.toNat →
      exec (.defineGroup tag f) s = .next (answered (.defineGroup tag f) .badArgument tag [] s)) ∧
    ∀ g : GroupNo, g.val = f.group.toNat →
      ((∃ x ∈ s.group g, x.state ≠ .disabled) →
        exec (.defineGroup tag f) s = .next (answered (.defineGroup tag f) .wrongState tag [] s)) ∧
      ((∀ x ∈ s.group g, x.state = .disabled) → ¬ GroupFieldsOk g f s →
        exec (.defineGroup tag f) s = .next (answered (.defineGroup tag f) .badArgument tag [] s)) ∧
      ((∀ x ∈ s.group g, x.state = .disabled) → GroupFieldsOk g f s →
        exec (.defineGroup tag f) s = .next (answered (.defineGroup tag f) .ok tag [] { s with
          freeSafe := s.freeSafe + (match s.group g with
            | some x => (x.safeImage.getD []).length
            | none => 0)
          groups := s.groups.set g (some {
            record := storedGroup f, state := .disabled, filling := none, armed := none, committing := none
            safeImage := none, pendingSafe := false, staleCount := 0, seqCount := 0, coalesced := 0, rejected := 0
            damaged := 0, behind := 0, front := none, back := .idle, captureInFlight := false, held := false
            holdCount := 0 }) }))

/-- ENABLE_GROUP of a DISABLED group: an output group is LIVE with every count 0 and no image; an input group is LIVE with IDLE
banks and no hold when the enabled input groups then have at most 1024 words together, and its banks leave the store, and
answers NO_SPACE otherwise; an UNDEFINED or enabled group answers WRONG_STATE.  From the enable of an output group on no host write
is forwarded to its range or sequence word: a write run that has not been issued ends before its first such word, and that word and
those after it are still to be taken (the model's choice, log 29). -/
def Obligations.EnableGroup : Prop :=
  ∀ (tag b : Byte) (s : State), LinkReady s →
    (31 < b.toNat → exec (.enableGroup tag b) s = .next (answered (.enableGroup tag b) .badArgument tag [] s)) ∧
    ∀ g : GroupNo, g.val = b.toNat →
      ((∀ x ∈ s.group g, x.state ≠ .disabled) →
        exec (.enableGroup tag b) s = .next (answered (.enableGroup tag b) .wrongState tag [] s)) ∧
      ∀ x ∈ s.group g, x.state = .disabled →
        (∀ t touched, x.record.kind = .output →
          t = answered (.enableGroup tag b) .ok tag [] { s with
            groups := s.groups.set g (some { x with
              state := .live, filling := none, armed := none, committing := none, pendingSafe := false, seqCount := 0
              staleCount := 0, coalesced := 0, rejected := 0, damaged := 0, behind := 0 }) } →
          touched = (fun (a : ActiveRequest) (k : Nat) =>
            let w := (a.request.addr + BitVec.ofNat 24 (a.taken - a.run.length + k)).toNat
            (x.record.base.toNat / 4 ≤ w ∧ w < x.record.base.toNat / 4 + x.record.length) ∨
              ∃ q ∈ x.record.seqAddr, q.toNat / 4 = w) →
          ((∀ a ∈ s.host.active, a.request.dir = .write → (∀ u ∈ s.port, u.purpose ≠ .run) →
              ∀ k, k < a.run.length → ¬ touched a k) →
            exec (.enableGroup tag b) s = .next t) ∧
          ∀ a k r, s.host.active = some a → a.request.dir = .write → (∀ u ∈ s.port, u.purpose ≠ .run) →
            k < a.run.length → touched a k → (∀ l, l < k → ¬ touched a l) →
            r = { a with
              run := a.run.take k, taken := a.taken - (a.run.length - k), wait := if k = 0 then .nothing else a.wait
              gaps := if a.wait = .nothing then (a.taken - (a.run.length - k)) :: a.gaps else a.gaps } →
            (a.wait = .nothing ∨ k ≠ 0 → exec (.enableGroup tag b) s = .next (settle (withRequest r t))) ∧
            (a.wait ≠ .nothing → k = 0 → exec (.enableGroup tag b) s = .next (goesOn r t))) ∧
        (x.record.kind = .input → s.enabledInputWords + x.record.length ≤ 1024 →
          exec (.enableGroup tag b) s = .next (answered (.enableGroup tag b) .ok tag [] { s with
            freeSnapshot := s.freeSnapshot - 2 * x.record.length
            groups := s.groups.set g (some { x with
              state := .live, front := none, back := .idle, captureInFlight := false, held := false
              holdCount := 0 }) })) ∧
        (x.record.kind = .input → 1024 < s.enabledInputWords + x.record.length →
          exec (.enableGroup tag b) s = .next (answered (.enableGroup tag b) .noSpace tag [] s))

/-- DISABLE_GROUP: an output group drops its filling and armed images and a pending SAFE job, and is DISABLED at once with OK, or
DRAINING with PENDING while its job is in flight; an input group likewise drops its banks, its hold and a PENDING back bank; a
DRAINING group answers PENDING and an UNDEFINED or DISABLED one WRONG_STATE, with nothing changed. -/
def Obligations.DisableGroup : Prop :=
  ∀ (tag b : Byte) (s : State), LinkReady s →
    (31 < b.toNat → exec (.disableGroup tag b) s = .next (answered (.disableGroup tag b) .badArgument tag [] s)) ∧
    ∀ g : GroupNo, g.val = b.toNat →
      ((∀ x ∈ s.group g, x.state = .disabled) →
        exec (.disableGroup tag b) s = .next (answered (.disableGroup tag b) .wrongState tag [] s)) ∧
      ∀ x ∈ s.group g,
        (x.state = .draining →
          exec (.disableGroup tag b) s = .next (answered (.disableGroup tag b) .pending tag [] s)) ∧
        (∀ n, (x.state = .live ∨ x.state = .safe) → x.record.kind = .output →
          n = (x.filling.elim 0 (fun f => f.entries.length)) + (x.armed.elim 0 (fun i => i.length)) →
          (x.committing = none →
            exec (.disableGroup tag b) s = .next (answered (.disableGroup tag b) .ok tag [] { s with
              freeStage := s.freeStage + n, edges := voidedForGroup g s.edges
              groups := s.groups.set g (some
                { x with state := .disabled, filling := none, armed := none, pendingSafe := false }) })) ∧
          (x.committing ≠ none →
            exec (.disableGroup tag b) s = .next (answered (.disableGroup tag b) .pending tag [] { s with
              freeStage := s.freeStage + n
              groups := s.groups.set g (some
                { x with state := .draining, filling := none, armed := none, pendingSafe := false }) }))) ∧
        (x.state = .live → x.record.kind = .input →
          (x.captureInFlight = false →
            exec (.disableGroup tag b) s = .next (answered (.disableGroup tag b) .ok tag [] { s with
              freeSnapshot := s.freeSnapshot + 2 * x.record.length, edges := voidedForGroup g s.edges
              groups := s.groups.set g (some
                { x with state := .disabled, front := none, back := .idle, held := false }) })) ∧
          (x.captureInFlight = true →
            (∀ p, x.back = .pending p →
              exec (.disableGroup tag b) s = .next (answered (.disableGroup tag b) .pending tag [] { s with
                groups := s.groups.set g (some { x with state := .draining, back := .idle }) })) ∧
            (x.back.isPending = false →
              exec (.disableGroup tag b) s = .next (answered (.disableGroup tag b) .pending tag [] { s with
                groups := s.groups.set g (some { x with state := .draining }) }))))

/-- DELETE_GROUP of a DISABLED group leaves the slot UNDEFINED and its safe entries free; RESUME_GROUP of an output group in SAFE
returns it to LIVE with stale count 0 and no pending SAFE job; in any other state each answers WRONG_STATE and changes nothing. -/
def Obligations.DeleteAndResume : Prop :=
  ∀ (tag b : Byte) (s : State), LinkReady s →
    (31 < b.toNat →
      exec (.deleteGroup tag b) s = .next (answered (.deleteGroup tag b) .badArgument tag [] s) ∧
      exec (.resumeGroup tag b) s = .next (answered (.resumeGroup tag b) .badArgument tag [] s)) ∧
    ∀ g : GroupNo, g.val = b.toNat →
      (∀ x ∈ s.group g, x.state = .disabled →
        exec (.deleteGroup tag b) s = .next (answered (.deleteGroup tag b) .ok tag [] { s with
          freeSafe := s.freeSafe + (x.safeImage.getD []).length, groups := s.groups.set g none })) ∧
      ((∀ x ∈ s.group g, x.state ≠ .disabled) →
        exec (.deleteGroup tag b) s = .next (answered (.deleteGroup tag b) .wrongState tag [] s)) ∧
      (∀ x ∈ s.group g, x.state = .safe → x.record.kind = .output →
        exec (.resumeGroup tag b) s = .next (answered (.resumeGroup tag b) .ok tag [] { s with
          groups := s.groups.set g (some { x with state := .live, staleCount := 0, pendingSafe := false }) })) ∧
      ((∀ x ∈ s.group g, x.state ≠ .safe ∨ x.record.kind = .input) →
        exec (.resumeGroup tag b) s = .next (answered (.resumeGroup tag b) .wrongState tag [] s))

/-- LOAD_SAFE, check by check; when all pass, the image is the old one, or with the first flag an empty one, with the loads applied
in order, and the store gives or takes the difference.  The loads replace the data word of an offset the image holds and append
the others: old offsets keep their places, a new one stands at the place of its first load, no offset stands twice, and the last
load of an offset gives its word. -/
def Obligations.LoadSafe : Prop :=
  (∀ (tag b first : Byte) (loads : List SafeEntry) (s : State), LinkReady s → loads.length ≤ 49 →
    (31 < b.toNat ∨ 1 < first.toNat →
      exec (.loadSafe tag b first loads) s = .next (answered (.loadSafe tag b first loads) .badArgument tag [] s)) ∧
    ∀ g : GroupNo, g.val = b.toNat → first.toNat ≤ 1 →
      (s.group g = none →
        exec (.loadSafe tag b first loads) s = .next (answered (.loadSafe tag b first loads) .wrongState tag [] s)) ∧
      ∀ x ∈ s.group g,
        (x.record.kind = .input →
          exec (.loadSafe tag b first loads) s = .next (answered (.loadSafe tag b first loads) .badArgument tag [] s)) ∧
        (x.record.kind = .output → x.state ≠ .disabled →
          exec (.loadSafe tag b first loads) s = .next (answered (.loadSafe tag b first loads) .wrongState tag [] s)) ∧
        (x.record.kind = .output → x.state = .disabled → (∃ l ∈ loads, x.record.length ≤ l.offset.toNat) →
          exec (.loadSafe tag b first loads) s = .next (answered (.loadSafe tag b first loads) .badArgument tag [] s)) ∧
        ∀ old new, old = x.safeImage.getD [] → new = applyLoads (if first = 1 then [] else old) loads →
          x.record.kind = .output → x.state = .disabled → (∀ l ∈ loads, l.offset.toNat < x.record.length) →
          (s.freeSafe + old.length < new.length →
            exec (.loadSafe tag b first loads) s = .next (answered (.loadSafe tag b first loads) .noSpace tag [] s)) ∧
          (new.length ≤ s.freeSafe + old.length →
            exec (.loadSafe tag b first loads) s = .next (answered (.loadSafe tag b first loads) .ok tag [] { s with
              freeSafe := s.freeSafe + old.length - new.length
              groups := s.groups.set g (some { x with safeImage := some new }) }))) ∧
  ∀ img loads : List SafeEntry, (img.map SafeEntry.offset).Nodup →
    ((applyLoads img loads).map SafeEntry.offset).Nodup ∧
    (applyLoads img loads).map SafeEntry.offset = ((img ++ loads).map SafeEntry.offset).eraseDups ∧
    (∃ added, (applyLoads img loads).map SafeEntry.offset = img.map SafeEntry.offset ++ added ∧
      added.Sublist (loads.map SafeEntry.offset)) ∧
    ∀ off, (applyLoads img loads).find? (fun e => e.offset == off) =
      (match loads.reverse.find? (fun e => e.offset == off) with
        | some l => some l
        | none => img.find? (fun e => e.offset == off))

/-- READ_GROUP answers the thirty bytes of R195 for the slot's state and changes nothing else: the fields of the other kind are 0,
and an UNDEFINED slot reports every field as 0. -/
def Obligations.ReadGroupReports : Prop :=
  ∀ (tag b : Byte) (s : State), LinkReady s →
    (31 < b.toNat → exec (.readGroup tag b) s = .next (answered (.readGroup tag b) .badArgument tag [] s)) ∧
    ∀ g : GroupNo, g.val = b.toNat →
      (s.group g = none →
        exec (.readGroup tag b) s = .next (answered (.readGroup tag b) .ok tag (List.replicate 30 0x00) s)) ∧
      ∀ x ∈ s.group g, ∀ code : Byte,
        code = (match x.state with
          | .disabled => 0x01
          | .live => 0x02
          | .safe => 0x03
          | .draining => 0x04) →
        (x.record.kind = .output →
          exec (.readGroup tag b) s = .next (answered (.readGroup tag b) .ok tag
            ([code, 0x00]
              ++ bytes16 (BitVec.ofNat 16 ((x.filling.map Filling.entries).getD []).length)
              ++ bytes16 (BitVec.ofNat 16 (x.armed.getD []).length)
              ++ bytes16 (BitVec.ofNat 16 (match x.committing with
                  | some (.commit img) => img.length
                  | some .safe => (x.safeImage.getD []).length
                  | none => 0))
              ++ [if (x.filling.map Filling.damaged) = some true then 0x01 else 0x00, x.staleCount]
              ++ bytes32 (0#2 ++ x.seqCount) ++ bytes16 x.coalesced ++ bytes16 x.rejected ++ bytes16 x.damaged
              ++ bytes16 x.behind ++ [0, 0, 0, 0, 0, 0, 0, 0]) s)) ∧
        (x.record.kind = .input →
          exec (.readGroup tag b) s = .next (answered (.readGroup tag b) .ok tag
            ([code, 0x01] ++ List.replicate 20 0x00
              ++ bytes32 ((x.front.map Bank.epoch).getD 0)
              ++ [if x.front = none then 0x01 else 0x00, if x.held then 0x01 else 0x00,
                  if x.back.isPending then 0x01 else 0x00, x.holdCount]) s))

/-! ## RESET_DEVICE -/

/-- RESET_DEVICE begins: the buffer holds NOT_READY, the event queue is empty with its mask kept, and every defined source is STOPPED
with its values cleared and its EPOCH line low; an open run of the host path is closed, to be issued when the reset ends.  With a
memory request in progress nothing else happens yet; with the port free the
abandonment follows at once.  Edges still waiting are taken first (DESIGN CHOICE, log 11); with none waiting that changes nothing. -/
def Obligations.ResetDeviceBegins : Prop :=
  (∀ s : State, s.edges = [] → takeAllEdges s = s) ∧
  ∀ (tag : Byte) (s u begun : State), LinkReady s →
    u = takeAllEdges { s with link := { s.link with
      receive := .complete, received := encodeFrame (.resetDevice tag) } } →
    begun = { u with
      link := { u.link with response := { status := .notReady, tag := tag, payload := [] } }
      events := { u.events with records := [], dropCount := 0, alert := false }
      sources := u.sources.map (fun x => if x.record = none then x else
        { record := x.record, running := false, epoch := 0, skip := false, lock := .await, holdover := 0, phase := 0,
          countdown := none, watch := none, standIn := none, absorbWindow := none, line := false })
      host := { u.host with active := u.host.active.map (fun a =>
        if a.wait = .nothing ∧ a.run ≠ [] then { a with wait := .run } else a) }
      resetting := some { tag := tag, abandoned := false, torn := [] } } →
    (u.port ≠ none → exec (.resetDevice tag) s = .next begun) ∧
    (u.port = none → exec (.resetDevice tag) s = .next (abandon { tag := tag, abandoned := false, torn := [] } begun))

/-- The abandonment: every job is gone, the streak is 0, every enabled group is DISABLED without its images, its pending SAFE job, its
banks and its hold, its counts kept, and the stage pool and the snapshot store are wholly free.  With TORN writes due the first is
granted the port; with none due the reset ends, and with no host request in the part the buffer then holds OK and nothing else
has changed. -/
def Obligations.AbandonmentOfWork : Prop :=
  ∀ (s gone : State) (r : Resetting), s.port = none → s.resetting = some r →
    gone = { s with
      groups := s.groups.map (fun o => o.map (fun x => if x.state = .disabled then x else
        { x with state := .disabled, filling := none, armed := none, committing := none, pendingSafe := false
                 front := none, back := .idle, captureInFlight := false, held := false }))
      freeStage := 4096, freeSnapshot := 2048, engine := { queue := [], running := none, marginList := [] }
      streak := 0 } →
    (∀ w rest, s.tornDue = w :: rest → abandon r s = { gone with
      resetting := some { tag := r.tag, abandoned := true, torn := w :: rest }
      port := some ⟨.torn, ⟨.write, w.addr, [⟨0xF, 0b10#2 ++ w.count⟩]⟩⟩ }) ∧
    (s.tornDue = [] → s.host.active = none → s.host.waiting = [] → abandon r s = { gone with
      resetting := none
      link := { s.link with response := { status := .ok, tag := r.tag, payload := [] } } })

/-- The answer to the memory request in progress when RESET_DEVICE began is recorded, and then the work is abandoned: the answers to
the engine's requests complete no job and raise no event. -/
def Obligations.AnswerDuringResetAbandons : Prop :=
  ∀ (s : State) (r : Resetting) (q : PortRequest) (st : PortStatus), s.resetAsserted = false → s.resetting = some r →
    r.abandoned = false →
    (∀ j p i, s.engine.running = some j → s.port = some ⟨p, q⟩ →
      (p = .opening ∧ i = .openingWriteResponse st ∨ p = .dataWrite ∧ i = .dataWriteResponse st ∨
        p = .releaseRead ∧ (∃ data, i = .releaseReadResponse st data) ∨
        p = .releaseWrite ∧ i = .releaseWriteResponse st ∨ p = .closing ∧ i = .closingWriteResponse st) →
      ∃ k : Job, k.kind = j.kind ∧ k.group = j.group ∧ k.count = j.count ∧ k.writingIssued = j.writingIssued ∧
        k.closingIssued = j.closingIssued ∧
        exec i s = .next (abandon r { s with port := none, engine := { s.engine with running := some k } })) ∧
    (∀ j data, s.engine.running = some j → j.kind = .capture → s.port = some ⟨.burst, q⟩ →
      (st = .okay → data.length = q.words.length) →
      ∃ k ws, k.kind = .capture ∧ k.group = j.group ∧
        exec (.captureBurstResponse st data) s = .next (abandon r { s with
          port := none
          engine := { s.engine with running := some k }
          groups := match s.group j.group with
            | some x => if x.record.kind = .input ∧ st = .okay then s.groups.set j.group (some { x with back := .filling ws })
                else s.groups
            | none => s.groups })) ∧
    (∀ a data, s.host.active = some a → s.port = some ⟨.run, q⟩ →
      (st = .okay → q.dir = .read → data.length = q.words.length) →
      exec (.runResponse st data) s = .next (abandon r { s with
        port := none, host := { s.host with active := some (a.runAnswered st data) } })) ∧
    ∀ a data, s.host.active = some a → s.port = some ⟨.layered, q⟩ →
      exec (.layeredReadResponse st data) s = .next (abandon r { s with
        port := none, host := { s.host with active := some (a.layeredAnswered st data) } })

/-- The TORN writes due at an abandonment are those of the COMMIT and SAFE jobs whose group has a sequence word, whose WRITING write
was issued and whose closing write was not, with the job's count, in ascending group number; and TORN_WRITE_RESPONSE, whatever
the answer, has the next one issued, and after the last ends the reset with OK and lets the host path go on: a run or a layered read
that was held is granted first.  That a response the host is owed waits for this end is the model's choice (log 28). -/
def Obligations.TornWritesAreDue : Prop :=
  (∀ s : State, (s.engine.jobs.map Job.group).Nodup →
    ∃ owners : List GroupNo, owners.Pairwise (· < ·) ∧
      (∀ g, g ∈ owners ↔ ∃ j ∈ s.engine.jobs, j.group = g ∧ j.kind ≠ .capture ∧ j.writingIssued = true ∧
        j.closingIssued = false ∧ ∃ x ∈ s.group g, x.record.seqAddr ≠ none) ∧
      owners.length = s.tornDue.length ∧
      ∀ p ∈ owners.zip s.tornDue, ∃ j ∈ s.engine.jobs, j.group = p.1 ∧ j.count = p.2.count ∧
        ∃ x ∈ s.group p.1, ∃ q ∈ x.record.seqAddr, p.2.addr = BitVec.ofNat 24 (q.toNat / 4)) ∧
  ∀ (s : State) (r : Resetting) (q : PortRequest) (st : PortStatus) (w : TornWrite), s.resetAsserted = false →
    s.resetting = some r → r.abandoned = true → s.port = some ⟨.torn, q⟩ →
    (∀ w' rest, r.torn = w :: w' :: rest → s.engine.running = none →
      exec (.tornWriteResponse st) s = .next { s with
        port := some ⟨.torn, ⟨.write, w'.addr, [⟨0xF, 0b10#2 ++ w'.count⟩]⟩⟩, streak := 0
        resetting := some { tag := r.tag, abandoned := true, torn := w' :: rest } }) ∧
    (∀ a ask, r.torn = [w] → s.engine.running = none → s.engine.queue = [] → s.host.active = some a →
      (a.wait = .run ∧
          ask = ⟨.run, ⟨a.request.dir, a.request.addr + BitVec.ofNat 24 (a.taken - a.run.length), a.run⟩⟩ ∨
        ∃ image lanes, a.wait = .layered image lanes ∧
          ask = ⟨.layered, ⟨.read, a.request.addr + BitVec.ofNat 24 a.taken, [⟨lanes, 0⟩]⟩⟩) →
      exec (.tornWriteResponse st) s = .next { s with
        port := some ask, streak := 0, resetting := none
        link := { s.link with response := { status := .ok, tag := r.tag, payload := [] } } }) ∧
    (r.torn = [w] → exec (.tornWriteResponse st) s = .next (settle (runHost { s with
      port := none, resetting := none
      link := { s.link with response := { status := .ok, tag := r.tag, payload := [] } } })))

/-! ## Laws of the device -/

/-- Free and held stage entries are always 4096, and an image slot holds entries only in the states that allow it: every command
keeps this. -/
def Obligations.StagePoolIsKept : Prop :=
  ∀ s t : State, PoolInv s → step s = .next t → PoolInv t

/-- The images of every group hold no offset twice, no offset beyond the range and no empty mask; the stale count stays within its
limit, below it in LIVE and at it in SAFE; and the snapshot items of an input group stay in the relations of R139: each of these
three is kept by every command. -/
def Obligations.GroupLawsAreKept : Prop :=
  ∀ s t : State, step s = .next t →
    (ImageLaw s → ImageLaw t) ∧ (StaleLaw s → StaleLaw t) ∧ (HoldLaw s → HoldLaw t)

/-- The safe store and the snapshot store balance, the event queue holds at most 64 records with ALERT high exactly when it should
be, a response has at most 228 payload bytes and none unless OK, and the streak is 0 to 8: each of these is kept by every
command. -/
def Obligations.StoresQueueAndLinkAreKept : Prop :=
  ∀ s t : State, step s = .next t →
    (SafeStoreLaw s → SafeStoreLaw t) ∧ (SnapshotLaw s → SnapshotLaw t) ∧ (EventLaw s → EventLaw t) ∧
    (ResponseLaw s → ResponseLaw t) ∧ (StreakLaw s → StreakLaw t)

/-- Every stored record is within the bounds that DEFINE_GROUP checks, no two ranges overlap, and no sequence word lies in a range or
is shared: every command keeps this, so at most one group is concerned with any word. -/
def Obligations.RangesAreKept : Prop :=
  ∀ s t : State, RangeLaw s → step s = .next t → RangeLaw t

/-- The engine holds at most one job for any group, every job belongs to an enabled group whose slot says so, every committing slot
and every capture in flight has its job, and the banks hold what the running capture has read: every command keeps this. -/
def Obligations.EngineAndBanksAreKept : Prop :=
  ∀ s t : State, EngineLaw s → BankLaw s → step s = .next t → EngineLaw t ∧ BankLaw t

/-- The timers of every source are those of its kind and sub-state, a source that is not RUNNING has none and no skip, and a parent
has a lower number than its child: every command keeps this. -/
def Obligations.SourceLawsAreKept : Prop :=
  ∀ s t : State, SourceLaw s → TimerLaw s → ParentLaw s → step s = .next t → SourceLaw t ∧ TimerLaw t ∧ ParentLaw t

/-- The host path takes at most 16 words a request, has one data word for each word read, stands still only while it waits for the
memory port or a reset or is at a gap, and has the outstanding request it waits for: every command keeps this.  That nothing held off
waits on a free path, and where the path stands, are the model's choices (logs 7 and 8).  And while an output group is enabled no
host write to its range or its sequence word is issued: no run that waits to be issued holds one, which every command keeps too, and
no run that a step newly grants does.  That a word forwarded before the enable is taken afresh is the model's choice (log 29). -/
def Obligations.HostPathLawIsKept : Prop :=
  ∀ s t : State, HostLaw s → step s = .next t →
    HostLaw t ∧
    (RangeLaw s → RunLaw s →
      RunLaw t ∧
      ∀ q : PortRequest, t.port = some ⟨.run, q⟩ → t.port ≠ s.port → q.dir = .write → ∀ k, k < q.words.length →
        ∀ g : GroupNo, ∀ x ∈ t.group g, x.record.kind = .output → x.state ≠ .disabled →
          ¬ InRange x.record.base.toNat x.record.length (4 * (q.addr + BitVec.ofNat 24 k).toNat) ∧
          ∀ a ∈ x.record.seqAddr, a.toNat ≠ 4 * (q.addr + BitVec.ofNat 24 k).toNat)

/-- Every law above holds at reset. -/
def Obligations.LawsHoldAtReset : Prop :=
  PoolInv State.reset ∧ ImageLaw State.reset ∧ StaleLaw State.reset ∧ HoldLaw State.reset ∧ SafeStoreLaw State.reset ∧
  SnapshotLaw State.reset ∧ EventLaw State.reset ∧ ResponseLaw State.reset ∧ StreakLaw State.reset ∧
  RangeLaw State.reset ∧ EngineLaw State.reset ∧ BankLaw State.reset ∧ SourceLaw State.reset ∧ TimerLaw State.reset ∧
  ParentLaw State.reset ∧ HostLaw State.reset ∧ RunLaw State.reset

/-- Only DEFINE_GROUP, DELETE_GROUP and POWER_ON change the record of a slot; and only they and LOAD_SAFE change a safe image or the
free safe entries. -/
def Obligations.RecordsAndSafeImagesChangeOnlyByCommand : Prop :=
  ∀ (i : Instr) (s t : State), exec i s = .next t → i ≠ .powerOn → (∀ tag f, i ≠ .defineGroup tag f) →
    (∀ tag b, i ≠ .deleteGroup tag b) →
    (∀ g, (t.group g).map Group.record = (s.group g).map Group.record) ∧
    ((∀ tag b first loads, i ≠ .loadSafe tag b first loads) →
      t.freeSafe = s.freeSafe ∧ ∀ g, (t.group g).bind Group.safeImage = (s.group g).bind Group.safeImage)

/-- A source's epoch number and the level of its EPOCH line move together: whatever the command, but for the definition and the start
of a source and the resets, the line has changed level exactly as often as the epoch number has risen. -/
def Obligations.EpochAndLineMoveTogether : Prop :=
  ∀ (i : Instr) (s t : State) (n : SourceNo), exec i s = .next t → i ≠ .powerOn → (∀ tag, i ≠ .resetDevice tag) →
    (∀ tag f, i ≠ .defineSource tag f) → (∀ tag b, i ≠ .startSource tag b) →
    (t.source n).epoch = (s.source n).epoch ∧ (t.source n).line = (s.source n).line ∨
    (t.source n).epoch = (s.source n).epoch + 1 ∧ (t.source n).line = !(s.source n).line
end

