-- ==== Sys2Proof/Laws/State.lean ====
section
/-! SUPPORT. What each named update of the state does to each field, true by rfl, so that no proof unfolds a record update. -/

namespace Sys2Proof.Machine

/-! ### State.setGroup -/

@[simp] theorem State.setGroup_resetAsserted (s : State) (g : GroupNo) (x : Group) : (s.setGroup g x).resetAsserted = s.resetAsserted := rfl
@[simp] theorem State.setGroup_groups (s : State) (g : GroupNo) (x : Group) : (s.setGroup g x).groups = s.groups.set g (some x) := rfl
@[simp] theorem State.setGroup_freeStage (s : State) (g : GroupNo) (x : Group) : (s.setGroup g x).freeStage = s.freeStage := rfl
@[simp] theorem State.setGroup_freeSafe (s : State) (g : GroupNo) (x : Group) : (s.setGroup g x).freeSafe = s.freeSafe := rfl
@[simp] theorem State.setGroup_freeSnapshot (s : State) (g : GroupNo) (x : Group) : (s.setGroup g x).freeSnapshot = s.freeSnapshot := rfl
@[simp] theorem State.setGroup_sources (s : State) (g : GroupNo) (x : Group) : (s.setGroup g x).sources = s.sources := rfl
@[simp] theorem State.setGroup_edges (s : State) (g : GroupNo) (x : Group) : (s.setGroup g x).edges = s.edges := rfl
@[simp] theorem State.setGroup_engine (s : State) (g : GroupNo) (x : Group) : (s.setGroup g x).engine = s.engine := rfl
@[simp] theorem State.setGroup_streak (s : State) (g : GroupNo) (x : Group) : (s.setGroup g x).streak = s.streak := rfl
@[simp] theorem State.setGroup_port (s : State) (g : GroupNo) (x : Group) : (s.setGroup g x).port = s.port := rfl
@[simp] theorem State.setGroup_host (s : State) (g : GroupNo) (x : Group) : (s.setGroup g x).host = s.host := rfl
@[simp] theorem State.setGroup_events (s : State) (g : GroupNo) (x : Group) : (s.setGroup g x).events = s.events := rfl
@[simp] theorem State.setGroup_link (s : State) (g : GroupNo) (x : Group) : (s.setGroup g x).link = s.link := rfl
@[simp] theorem State.setGroup_resetting (s : State) (g : GroupNo) (x : Group) : (s.setGroup g x).resetting = s.resetting := rfl
@[simp] theorem State.setGroup_pending (s : State) (g : GroupNo) (x : Group) : (s.setGroup g x).pending = s.pending := rfl

/-! ### State.clearGroup -/

@[simp] theorem State.clearGroup_resetAsserted (s : State) (g : GroupNo) : (s.clearGroup g).resetAsserted = s.resetAsserted := rfl
@[simp] theorem State.clearGroup_groups (s : State) (g : GroupNo) : (s.clearGroup g).groups = s.groups.set g none := rfl
@[simp] theorem State.clearGroup_freeStage (s : State) (g : GroupNo) : (s.clearGroup g).freeStage = s.freeStage := rfl
@[simp] theorem State.clearGroup_freeSafe (s : State) (g : GroupNo) : (s.clearGroup g).freeSafe = s.freeSafe := rfl
@[simp] theorem State.clearGroup_freeSnapshot (s : State) (g : GroupNo) : (s.clearGroup g).freeSnapshot = s.freeSnapshot := rfl
@[simp] theorem State.clearGroup_sources (s : State) (g : GroupNo) : (s.clearGroup g).sources = s.sources := rfl
@[simp] theorem State.clearGroup_edges (s : State) (g : GroupNo) : (s.clearGroup g).edges = s.edges := rfl
@[simp] theorem State.clearGroup_engine (s : State) (g : GroupNo) : (s.clearGroup g).engine = s.engine := rfl
@[simp] theorem State.clearGroup_streak (s : State) (g : GroupNo) : (s.clearGroup g).streak = s.streak := rfl
@[simp] theorem State.clearGroup_port (s : State) (g : GroupNo) : (s.clearGroup g).port = s.port := rfl
@[simp] theorem State.clearGroup_host (s : State) (g : GroupNo) : (s.clearGroup g).host = s.host := rfl
@[simp] theorem State.clearGroup_events (s : State) (g : GroupNo) : (s.clearGroup g).events = s.events := rfl
@[simp] theorem State.clearGroup_link (s : State) (g : GroupNo) : (s.clearGroup g).link = s.link := rfl
@[simp] theorem State.clearGroup_resetting (s : State) (g : GroupNo) : (s.clearGroup g).resetting = s.resetting := rfl
@[simp] theorem State.clearGroup_pending (s : State) (g : GroupNo) : (s.clearGroup g).pending = s.pending := rfl

/-! ### State.setSource -/

@[simp] theorem State.setSource_resetAsserted (s : State) (n : SourceNo) (x : Source) : (s.setSource n x).resetAsserted = s.resetAsserted := rfl
@[simp] theorem State.setSource_groups (s : State) (n : SourceNo) (x : Source) : (s.setSource n x).groups = s.groups := rfl
@[simp] theorem State.setSource_freeStage (s : State) (n : SourceNo) (x : Source) : (s.setSource n x).freeStage = s.freeStage := rfl
@[simp] theorem State.setSource_freeSafe (s : State) (n : SourceNo) (x : Source) : (s.setSource n x).freeSafe = s.freeSafe := rfl
@[simp] theorem State.setSource_freeSnapshot (s : State) (n : SourceNo) (x : Source) : (s.setSource n x).freeSnapshot = s.freeSnapshot := rfl
@[simp] theorem State.setSource_sources (s : State) (n : SourceNo) (x : Source) : (s.setSource n x).sources = s.sources.set n x := rfl
@[simp] theorem State.setSource_edges (s : State) (n : SourceNo) (x : Source) : (s.setSource n x).edges = s.edges := rfl
@[simp] theorem State.setSource_engine (s : State) (n : SourceNo) (x : Source) : (s.setSource n x).engine = s.engine := rfl
@[simp] theorem State.setSource_streak (s : State) (n : SourceNo) (x : Source) : (s.setSource n x).streak = s.streak := rfl
@[simp] theorem State.setSource_port (s : State) (n : SourceNo) (x : Source) : (s.setSource n x).port = s.port := rfl
@[simp] theorem State.setSource_host (s : State) (n : SourceNo) (x : Source) : (s.setSource n x).host = s.host := rfl
@[simp] theorem State.setSource_events (s : State) (n : SourceNo) (x : Source) : (s.setSource n x).events = s.events := rfl
@[simp] theorem State.setSource_link (s : State) (n : SourceNo) (x : Source) : (s.setSource n x).link = s.link := rfl
@[simp] theorem State.setSource_resetting (s : State) (n : SourceNo) (x : Source) : (s.setSource n x).resetting = s.resetting := rfl
@[simp] theorem State.setSource_pending (s : State) (n : SourceNo) (x : Source) : (s.setSource n x).pending = s.pending := rfl

/-! ### State.setFreeStage -/

@[simp] theorem State.setFreeStage_resetAsserted (s : State) (n : Nat) : (s.setFreeStage n).resetAsserted = s.resetAsserted := rfl
@[simp] theorem State.setFreeStage_groups (s : State) (n : Nat) : (s.setFreeStage n).groups = s.groups := rfl
@[simp] theorem State.setFreeStage_freeStage (s : State) (n : Nat) : (s.setFreeStage n).freeStage = n := rfl
@[simp] theorem State.setFreeStage_freeSafe (s : State) (n : Nat) : (s.setFreeStage n).freeSafe = s.freeSafe := rfl
@[simp] theorem State.setFreeStage_freeSnapshot (s : State) (n : Nat) : (s.setFreeStage n).freeSnapshot = s.freeSnapshot := rfl
@[simp] theorem State.setFreeStage_sources (s : State) (n : Nat) : (s.setFreeStage n).sources = s.sources := rfl
@[simp] theorem State.setFreeStage_edges (s : State) (n : Nat) : (s.setFreeStage n).edges = s.edges := rfl
@[simp] theorem State.setFreeStage_engine (s : State) (n : Nat) : (s.setFreeStage n).engine = s.engine := rfl
@[simp] theorem State.setFreeStage_streak (s : State) (n : Nat) : (s.setFreeStage n).streak = s.streak := rfl
@[simp] theorem State.setFreeStage_port (s : State) (n : Nat) : (s.setFreeStage n).port = s.port := rfl
@[simp] theorem State.setFreeStage_host (s : State) (n : Nat) : (s.setFreeStage n).host = s.host := rfl
@[simp] theorem State.setFreeStage_events (s : State) (n : Nat) : (s.setFreeStage n).events = s.events := rfl
@[simp] theorem State.setFreeStage_link (s : State) (n : Nat) : (s.setFreeStage n).link = s.link := rfl
@[simp] theorem State.setFreeStage_resetting (s : State) (n : Nat) : (s.setFreeStage n).resetting = s.resetting := rfl
@[simp] theorem State.setFreeStage_pending (s : State) (n : Nat) : (s.setFreeStage n).pending = s.pending := rfl

/-! ### State.setFreeSafe -/

@[simp] theorem State.setFreeSafe_resetAsserted (s : State) (n : Nat) : (s.setFreeSafe n).resetAsserted = s.resetAsserted := rfl
@[simp] theorem State.setFreeSafe_groups (s : State) (n : Nat) : (s.setFreeSafe n).groups = s.groups := rfl
@[simp] theorem State.setFreeSafe_freeStage (s : State) (n : Nat) : (s.setFreeSafe n).freeStage = s.freeStage := rfl
@[simp] theorem State.setFreeSafe_freeSafe (s : State) (n : Nat) : (s.setFreeSafe n).freeSafe = n := rfl
@[simp] theorem State.setFreeSafe_freeSnapshot (s : State) (n : Nat) : (s.setFreeSafe n).freeSnapshot = s.freeSnapshot := rfl
@[simp] theorem State.setFreeSafe_sources (s : State) (n : Nat) : (s.setFreeSafe n).sources = s.sources := rfl
@[simp] theorem State.setFreeSafe_edges (s : State) (n : Nat) : (s.setFreeSafe n).edges = s.edges := rfl
@[simp] theorem State.setFreeSafe_engine (s : State) (n : Nat) : (s.setFreeSafe n).engine = s.engine := rfl
@[simp] theorem State.setFreeSafe_streak (s : State) (n : Nat) : (s.setFreeSafe n).streak = s.streak := rfl
@[simp] theorem State.setFreeSafe_port (s : State) (n : Nat) : (s.setFreeSafe n).port = s.port := rfl
@[simp] theorem State.setFreeSafe_host (s : State) (n : Nat) : (s.setFreeSafe n).host = s.host := rfl
@[simp] theorem State.setFreeSafe_events (s : State) (n : Nat) : (s.setFreeSafe n).events = s.events := rfl
@[simp] theorem State.setFreeSafe_link (s : State) (n : Nat) : (s.setFreeSafe n).link = s.link := rfl
@[simp] theorem State.setFreeSafe_resetting (s : State) (n : Nat) : (s.setFreeSafe n).resetting = s.resetting := rfl
@[simp] theorem State.setFreeSafe_pending (s : State) (n : Nat) : (s.setFreeSafe n).pending = s.pending := rfl

/-! ### State.setFreeSnapshot -/

@[simp] theorem State.setFreeSnapshot_resetAsserted (s : State) (n : Nat) : (s.setFreeSnapshot n).resetAsserted = s.resetAsserted := rfl
@[simp] theorem State.setFreeSnapshot_groups (s : State) (n : Nat) : (s.setFreeSnapshot n).groups = s.groups := rfl
@[simp] theorem State.setFreeSnapshot_freeStage (s : State) (n : Nat) : (s.setFreeSnapshot n).freeStage = s.freeStage := rfl
@[simp] theorem State.setFreeSnapshot_freeSafe (s : State) (n : Nat) : (s.setFreeSnapshot n).freeSafe = s.freeSafe := rfl
@[simp] theorem State.setFreeSnapshot_freeSnapshot (s : State) (n : Nat) : (s.setFreeSnapshot n).freeSnapshot = n := rfl
@[simp] theorem State.setFreeSnapshot_sources (s : State) (n : Nat) : (s.setFreeSnapshot n).sources = s.sources := rfl
@[simp] theorem State.setFreeSnapshot_edges (s : State) (n : Nat) : (s.setFreeSnapshot n).edges = s.edges := rfl
@[simp] theorem State.setFreeSnapshot_engine (s : State) (n : Nat) : (s.setFreeSnapshot n).engine = s.engine := rfl
@[simp] theorem State.setFreeSnapshot_streak (s : State) (n : Nat) : (s.setFreeSnapshot n).streak = s.streak := rfl
@[simp] theorem State.setFreeSnapshot_port (s : State) (n : Nat) : (s.setFreeSnapshot n).port = s.port := rfl
@[simp] theorem State.setFreeSnapshot_host (s : State) (n : Nat) : (s.setFreeSnapshot n).host = s.host := rfl
@[simp] theorem State.setFreeSnapshot_events (s : State) (n : Nat) : (s.setFreeSnapshot n).events = s.events := rfl
@[simp] theorem State.setFreeSnapshot_link (s : State) (n : Nat) : (s.setFreeSnapshot n).link = s.link := rfl
@[simp] theorem State.setFreeSnapshot_resetting (s : State) (n : Nat) : (s.setFreeSnapshot n).resetting = s.resetting := rfl
@[simp] theorem State.setFreeSnapshot_pending (s : State) (n : Nat) : (s.setFreeSnapshot n).pending = s.pending := rfl

/-! ### State.setEdges -/

@[simp] theorem State.setEdges_resetAsserted (s : State) (es : List Edge) : (s.setEdges es).resetAsserted = s.resetAsserted := rfl
@[simp] theorem State.setEdges_groups (s : State) (es : List Edge) : (s.setEdges es).groups = s.groups := rfl
@[simp] theorem State.setEdges_freeStage (s : State) (es : List Edge) : (s.setEdges es).freeStage = s.freeStage := rfl
@[simp] theorem State.setEdges_freeSafe (s : State) (es : List Edge) : (s.setEdges es).freeSafe = s.freeSafe := rfl
@[simp] theorem State.setEdges_freeSnapshot (s : State) (es : List Edge) : (s.setEdges es).freeSnapshot = s.freeSnapshot := rfl
@[simp] theorem State.setEdges_sources (s : State) (es : List Edge) : (s.setEdges es).sources = s.sources := rfl
@[simp] theorem State.setEdges_edges (s : State) (es : List Edge) : (s.setEdges es).edges = es := rfl
@[simp] theorem State.setEdges_engine (s : State) (es : List Edge) : (s.setEdges es).engine = s.engine := rfl
@[simp] theorem State.setEdges_streak (s : State) (es : List Edge) : (s.setEdges es).streak = s.streak := rfl
@[simp] theorem State.setEdges_port (s : State) (es : List Edge) : (s.setEdges es).port = s.port := rfl
@[simp] theorem State.setEdges_host (s : State) (es : List Edge) : (s.setEdges es).host = s.host := rfl
@[simp] theorem State.setEdges_events (s : State) (es : List Edge) : (s.setEdges es).events = s.events := rfl
@[simp] theorem State.setEdges_link (s : State) (es : List Edge) : (s.setEdges es).link = s.link := rfl
@[simp] theorem State.setEdges_resetting (s : State) (es : List Edge) : (s.setEdges es).resetting = s.resetting := rfl
@[simp] theorem State.setEdges_pending (s : State) (es : List Edge) : (s.setEdges es).pending = s.pending := rfl

/-! ### State.setEngine -/

@[simp] theorem State.setEngine_resetAsserted (s : State) (e : Engine) : (s.setEngine e).resetAsserted = s.resetAsserted := rfl
@[simp] theorem State.setEngine_groups (s : State) (e : Engine) : (s.setEngine e).groups = s.groups := rfl
@[simp] theorem State.setEngine_freeStage (s : State) (e : Engine) : (s.setEngine e).freeStage = s.freeStage := rfl
@[simp] theorem State.setEngine_freeSafe (s : State) (e : Engine) : (s.setEngine e).freeSafe = s.freeSafe := rfl
@[simp] theorem State.setEngine_freeSnapshot (s : State) (e : Engine) : (s.setEngine e).freeSnapshot = s.freeSnapshot := rfl
@[simp] theorem State.setEngine_sources (s : State) (e : Engine) : (s.setEngine e).sources = s.sources := rfl
@[simp] theorem State.setEngine_edges (s : State) (e : Engine) : (s.setEngine e).edges = s.edges := rfl
@[simp] theorem State.setEngine_engine (s : State) (e : Engine) : (s.setEngine e).engine = e := rfl
@[simp] theorem State.setEngine_streak (s : State) (e : Engine) : (s.setEngine e).streak = s.streak := rfl
@[simp] theorem State.setEngine_port (s : State) (e : Engine) : (s.setEngine e).port = s.port := rfl
@[simp] theorem State.setEngine_host (s : State) (e : Engine) : (s.setEngine e).host = s.host := rfl
@[simp] theorem State.setEngine_events (s : State) (e : Engine) : (s.setEngine e).events = s.events := rfl
@[simp] theorem State.setEngine_link (s : State) (e : Engine) : (s.setEngine e).link = s.link := rfl
@[simp] theorem State.setEngine_resetting (s : State) (e : Engine) : (s.setEngine e).resetting = s.resetting := rfl
@[simp] theorem State.setEngine_pending (s : State) (e : Engine) : (s.setEngine e).pending = s.pending := rfl

/-! ### State.setHost -/

@[simp] theorem State.setHost_resetAsserted (s : State) (h : HostPath) : (s.setHost h).resetAsserted = s.resetAsserted := rfl
@[simp] theorem State.setHost_groups (s : State) (h : HostPath) : (s.setHost h).groups = s.groups := rfl
@[simp] theorem State.setHost_freeStage (s : State) (h : HostPath) : (s.setHost h).freeStage = s.freeStage := rfl
@[simp] theorem State.setHost_freeSafe (s : State) (h : HostPath) : (s.setHost h).freeSafe = s.freeSafe := rfl
@[simp] theorem State.setHost_freeSnapshot (s : State) (h : HostPath) : (s.setHost h).freeSnapshot = s.freeSnapshot := rfl
@[simp] theorem State.setHost_sources (s : State) (h : HostPath) : (s.setHost h).sources = s.sources := rfl
@[simp] theorem State.setHost_edges (s : State) (h : HostPath) : (s.setHost h).edges = s.edges := rfl
@[simp] theorem State.setHost_engine (s : State) (h : HostPath) : (s.setHost h).engine = s.engine := rfl
@[simp] theorem State.setHost_streak (s : State) (h : HostPath) : (s.setHost h).streak = s.streak := rfl
@[simp] theorem State.setHost_port (s : State) (h : HostPath) : (s.setHost h).port = s.port := rfl
@[simp] theorem State.setHost_host (s : State) (h : HostPath) : (s.setHost h).host = h := rfl
@[simp] theorem State.setHost_events (s : State) (h : HostPath) : (s.setHost h).events = s.events := rfl
@[simp] theorem State.setHost_link (s : State) (h : HostPath) : (s.setHost h).link = s.link := rfl
@[simp] theorem State.setHost_resetting (s : State) (h : HostPath) : (s.setHost h).resetting = s.resetting := rfl
@[simp] theorem State.setHost_pending (s : State) (h : HostPath) : (s.setHost h).pending = s.pending := rfl

/-! ### State.setPort -/

@[simp] theorem State.setPort_resetAsserted (s : State) (p : Option PortUse) : (s.setPort p).resetAsserted = s.resetAsserted := rfl
@[simp] theorem State.setPort_groups (s : State) (p : Option PortUse) : (s.setPort p).groups = s.groups := rfl
@[simp] theorem State.setPort_freeStage (s : State) (p : Option PortUse) : (s.setPort p).freeStage = s.freeStage := rfl
@[simp] theorem State.setPort_freeSafe (s : State) (p : Option PortUse) : (s.setPort p).freeSafe = s.freeSafe := rfl
@[simp] theorem State.setPort_freeSnapshot (s : State) (p : Option PortUse) : (s.setPort p).freeSnapshot = s.freeSnapshot := rfl
@[simp] theorem State.setPort_sources (s : State) (p : Option PortUse) : (s.setPort p).sources = s.sources := rfl
@[simp] theorem State.setPort_edges (s : State) (p : Option PortUse) : (s.setPort p).edges = s.edges := rfl
@[simp] theorem State.setPort_engine (s : State) (p : Option PortUse) : (s.setPort p).engine = s.engine := rfl
@[simp] theorem State.setPort_streak (s : State) (p : Option PortUse) : (s.setPort p).streak = s.streak := rfl
@[simp] theorem State.setPort_port (s : State) (p : Option PortUse) : (s.setPort p).port = p := rfl
@[simp] theorem State.setPort_host (s : State) (p : Option PortUse) : (s.setPort p).host = s.host := rfl
@[simp] theorem State.setPort_events (s : State) (p : Option PortUse) : (s.setPort p).events = s.events := rfl
@[simp] theorem State.setPort_link (s : State) (p : Option PortUse) : (s.setPort p).link = s.link := rfl
@[simp] theorem State.setPort_resetting (s : State) (p : Option PortUse) : (s.setPort p).resetting = s.resetting := rfl
@[simp] theorem State.setPort_pending (s : State) (p : Option PortUse) : (s.setPort p).pending = s.pending := rfl

/-! ### State.setEvents -/

@[simp] theorem State.setEvents_resetAsserted (s : State) (q : EventQueue) : (s.setEvents q).resetAsserted = s.resetAsserted := rfl
@[simp] theorem State.setEvents_groups (s : State) (q : EventQueue) : (s.setEvents q).groups = s.groups := rfl
@[simp] theorem State.setEvents_freeStage (s : State) (q : EventQueue) : (s.setEvents q).freeStage = s.freeStage := rfl
@[simp] theorem State.setEvents_freeSafe (s : State) (q : EventQueue) : (s.setEvents q).freeSafe = s.freeSafe := rfl
@[simp] theorem State.setEvents_freeSnapshot (s : State) (q : EventQueue) : (s.setEvents q).freeSnapshot = s.freeSnapshot := rfl
@[simp] theorem State.setEvents_sources (s : State) (q : EventQueue) : (s.setEvents q).sources = s.sources := rfl
@[simp] theorem State.setEvents_edges (s : State) (q : EventQueue) : (s.setEvents q).edges = s.edges := rfl
@[simp] theorem State.setEvents_engine (s : State) (q : EventQueue) : (s.setEvents q).engine = s.engine := rfl
@[simp] theorem State.setEvents_streak (s : State) (q : EventQueue) : (s.setEvents q).streak = s.streak := rfl
@[simp] theorem State.setEvents_port (s : State) (q : EventQueue) : (s.setEvents q).port = s.port := rfl
@[simp] theorem State.setEvents_host (s : State) (q : EventQueue) : (s.setEvents q).host = s.host := rfl
@[simp] theorem State.setEvents_events (s : State) (q : EventQueue) : (s.setEvents q).events = q := rfl
@[simp] theorem State.setEvents_link (s : State) (q : EventQueue) : (s.setEvents q).link = s.link := rfl
@[simp] theorem State.setEvents_resetting (s : State) (q : EventQueue) : (s.setEvents q).resetting = s.resetting := rfl
@[simp] theorem State.setEvents_pending (s : State) (q : EventQueue) : (s.setEvents q).pending = s.pending := rfl

/-! ### State.setLink -/

@[simp] theorem State.setLink_resetAsserted (s : State) (l : Link) : (s.setLink l).resetAsserted = s.resetAsserted := rfl
@[simp] theorem State.setLink_groups (s : State) (l : Link) : (s.setLink l).groups = s.groups := rfl
@[simp] theorem State.setLink_freeStage (s : State) (l : Link) : (s.setLink l).freeStage = s.freeStage := rfl
@[simp] theorem State.setLink_freeSafe (s : State) (l : Link) : (s.setLink l).freeSafe = s.freeSafe := rfl
@[simp] theorem State.setLink_freeSnapshot (s : State) (l : Link) : (s.setLink l).freeSnapshot = s.freeSnapshot := rfl
@[simp] theorem State.setLink_sources (s : State) (l : Link) : (s.setLink l).sources = s.sources := rfl
@[simp] theorem State.setLink_edges (s : State) (l : Link) : (s.setLink l).edges = s.edges := rfl
@[simp] theorem State.setLink_engine (s : State) (l : Link) : (s.setLink l).engine = s.engine := rfl
@[simp] theorem State.setLink_streak (s : State) (l : Link) : (s.setLink l).streak = s.streak := rfl
@[simp] theorem State.setLink_port (s : State) (l : Link) : (s.setLink l).port = s.port := rfl
@[simp] theorem State.setLink_host (s : State) (l : Link) : (s.setLink l).host = s.host := rfl
@[simp] theorem State.setLink_events (s : State) (l : Link) : (s.setLink l).events = s.events := rfl
@[simp] theorem State.setLink_link (s : State) (l : Link) : (s.setLink l).link = l := rfl
@[simp] theorem State.setLink_resetting (s : State) (l : Link) : (s.setLink l).resetting = s.resetting := rfl
@[simp] theorem State.setLink_pending (s : State) (l : Link) : (s.setLink l).pending = s.pending := rfl

/-! ### State.appendJob -/

@[simp] theorem State.appendJob_resetAsserted (s : State) (j : Job) : (s.appendJob j).resetAsserted = s.resetAsserted := rfl
@[simp] theorem State.appendJob_groups (s : State) (j : Job) : (s.appendJob j).groups = s.groups := rfl
@[simp] theorem State.appendJob_freeStage (s : State) (j : Job) : (s.appendJob j).freeStage = s.freeStage := rfl
@[simp] theorem State.appendJob_freeSafe (s : State) (j : Job) : (s.appendJob j).freeSafe = s.freeSafe := rfl
@[simp] theorem State.appendJob_freeSnapshot (s : State) (j : Job) : (s.appendJob j).freeSnapshot = s.freeSnapshot := rfl
@[simp] theorem State.appendJob_sources (s : State) (j : Job) : (s.appendJob j).sources = s.sources := rfl
@[simp] theorem State.appendJob_edges (s : State) (j : Job) : (s.appendJob j).edges = s.edges := rfl
@[simp] theorem State.appendJob_engine (s : State) (j : Job) : (s.appendJob j).engine = { s.engine with queue := s.engine.queue ++ [j] } := rfl
@[simp] theorem State.appendJob_streak (s : State) (j : Job) : (s.appendJob j).streak = s.streak := rfl
@[simp] theorem State.appendJob_port (s : State) (j : Job) : (s.appendJob j).port = s.port := rfl
@[simp] theorem State.appendJob_host (s : State) (j : Job) : (s.appendJob j).host = s.host := rfl
@[simp] theorem State.appendJob_events (s : State) (j : Job) : (s.appendJob j).events = s.events := rfl
@[simp] theorem State.appendJob_link (s : State) (j : Job) : (s.appendJob j).link = s.link := rfl
@[simp] theorem State.appendJob_resetting (s : State) (j : Job) : (s.appendJob j).resetting = s.resetting := rfl
@[simp] theorem State.appendJob_pending (s : State) (j : Job) : (s.appendJob j).pending = s.pending := rfl

/-! ### State.setRunning -/

@[simp] theorem State.setRunning_resetAsserted (s : State) (j : Option Job) : (s.setRunning j).resetAsserted = s.resetAsserted := rfl
@[simp] theorem State.setRunning_groups (s : State) (j : Option Job) : (s.setRunning j).groups = s.groups := rfl
@[simp] theorem State.setRunning_freeStage (s : State) (j : Option Job) : (s.setRunning j).freeStage = s.freeStage := rfl
@[simp] theorem State.setRunning_freeSafe (s : State) (j : Option Job) : (s.setRunning j).freeSafe = s.freeSafe := rfl
@[simp] theorem State.setRunning_freeSnapshot (s : State) (j : Option Job) : (s.setRunning j).freeSnapshot = s.freeSnapshot := rfl
@[simp] theorem State.setRunning_sources (s : State) (j : Option Job) : (s.setRunning j).sources = s.sources := rfl
@[simp] theorem State.setRunning_edges (s : State) (j : Option Job) : (s.setRunning j).edges = s.edges := rfl
@[simp] theorem State.setRunning_engine (s : State) (j : Option Job) : (s.setRunning j).engine = { s.engine with running := j } := rfl
@[simp] theorem State.setRunning_streak (s : State) (j : Option Job) : (s.setRunning j).streak = s.streak := rfl
@[simp] theorem State.setRunning_port (s : State) (j : Option Job) : (s.setRunning j).port = s.port := rfl
@[simp] theorem State.setRunning_host (s : State) (j : Option Job) : (s.setRunning j).host = s.host := rfl
@[simp] theorem State.setRunning_events (s : State) (j : Option Job) : (s.setRunning j).events = s.events := rfl
@[simp] theorem State.setRunning_link (s : State) (j : Option Job) : (s.setRunning j).link = s.link := rfl
@[simp] theorem State.setRunning_resetting (s : State) (j : Option Job) : (s.setRunning j).resetting = s.resetting := rfl
@[simp] theorem State.setRunning_pending (s : State) (j : Option Job) : (s.setRunning j).pending = s.pending := rfl

/-! ### State.respond -/

@[simp] theorem State.respond_resetAsserted (s : State) (st : Status) (tag : Byte) (p : List Byte) : (s.respond st tag p).resetAsserted = s.resetAsserted := rfl
@[simp] theorem State.respond_groups (s : State) (st : Status) (tag : Byte) (p : List Byte) : (s.respond st tag p).groups = s.groups := rfl
@[simp] theorem State.respond_freeStage (s : State) (st : Status) (tag : Byte) (p : List Byte) : (s.respond st tag p).freeStage = s.freeStage := rfl
@[simp] theorem State.respond_freeSafe (s : State) (st : Status) (tag : Byte) (p : List Byte) : (s.respond st tag p).freeSafe = s.freeSafe := rfl
@[simp] theorem State.respond_freeSnapshot (s : State) (st : Status) (tag : Byte) (p : List Byte) : (s.respond st tag p).freeSnapshot = s.freeSnapshot := rfl
@[simp] theorem State.respond_sources (s : State) (st : Status) (tag : Byte) (p : List Byte) : (s.respond st tag p).sources = s.sources := rfl
@[simp] theorem State.respond_edges (s : State) (st : Status) (tag : Byte) (p : List Byte) : (s.respond st tag p).edges = s.edges := rfl
@[simp] theorem State.respond_engine (s : State) (st : Status) (tag : Byte) (p : List Byte) : (s.respond st tag p).engine = s.engine := rfl
@[simp] theorem State.respond_streak (s : State) (st : Status) (tag : Byte) (p : List Byte) : (s.respond st tag p).streak = s.streak := rfl
@[simp] theorem State.respond_port (s : State) (st : Status) (tag : Byte) (p : List Byte) : (s.respond st tag p).port = s.port := rfl
@[simp] theorem State.respond_host (s : State) (st : Status) (tag : Byte) (p : List Byte) : (s.respond st tag p).host = s.host := rfl
@[simp] theorem State.respond_events (s : State) (st : Status) (tag : Byte) (p : List Byte) : (s.respond st tag p).events = s.events := rfl
@[simp] theorem State.respond_link (s : State) (st : Status) (tag : Byte) (p : List Byte) : (s.respond st tag p).link = { s.link with response := { status := st, tag := tag, payload := p } } := rfl
@[simp] theorem State.respond_resetting (s : State) (st : Status) (tag : Byte) (p : List Byte) : (s.respond st tag p).resetting = s.resetting := rfl
@[simp] theorem State.respond_pending (s : State) (st : Status) (tag : Byte) (p : List Byte) : (s.respond st tag p).pending = s.pending := rfl

/-! ### State.returnStage -/

@[simp] theorem State.returnStage_resetAsserted (s : State) (n : Nat) : (s.returnStage n).resetAsserted = s.resetAsserted := rfl
@[simp] theorem State.returnStage_groups (s : State) (n : Nat) : (s.returnStage n).groups = s.groups := rfl
@[simp] theorem State.returnStage_freeStage (s : State) (n : Nat) : (s.returnStage n).freeStage = s.freeStage + n := rfl
@[simp] theorem State.returnStage_freeSafe (s : State) (n : Nat) : (s.returnStage n).freeSafe = s.freeSafe := rfl
@[simp] theorem State.returnStage_freeSnapshot (s : State) (n : Nat) : (s.returnStage n).freeSnapshot = s.freeSnapshot := rfl
@[simp] theorem State.returnStage_sources (s : State) (n : Nat) : (s.returnStage n).sources = s.sources := rfl
@[simp] theorem State.returnStage_edges (s : State) (n : Nat) : (s.returnStage n).edges = s.edges := rfl
@[simp] theorem State.returnStage_engine (s : State) (n : Nat) : (s.returnStage n).engine = s.engine := rfl
@[simp] theorem State.returnStage_streak (s : State) (n : Nat) : (s.returnStage n).streak = s.streak := rfl
@[simp] theorem State.returnStage_port (s : State) (n : Nat) : (s.returnStage n).port = s.port := rfl
@[simp] theorem State.returnStage_host (s : State) (n : Nat) : (s.returnStage n).host = s.host := rfl
@[simp] theorem State.returnStage_events (s : State) (n : Nat) : (s.returnStage n).events = s.events := rfl
@[simp] theorem State.returnStage_link (s : State) (n : Nat) : (s.returnStage n).link = s.link := rfl
@[simp] theorem State.returnStage_resetting (s : State) (n : Nat) : (s.returnStage n).resetting = s.resetting := rfl
@[simp] theorem State.returnStage_pending (s : State) (n : Nat) : (s.returnStage n).pending = s.pending := rfl

/-! ### State.raise -/

@[simp] theorem State.raise_resetAsserted (s : State) (e : EventRecord) : (s.raise e).resetAsserted = s.resetAsserted := rfl
@[simp] theorem State.raise_groups (s : State) (e : EventRecord) : (s.raise e).groups = s.groups := rfl
@[simp] theorem State.raise_freeStage (s : State) (e : EventRecord) : (s.raise e).freeStage = s.freeStage := rfl
@[simp] theorem State.raise_freeSafe (s : State) (e : EventRecord) : (s.raise e).freeSafe = s.freeSafe := rfl
@[simp] theorem State.raise_freeSnapshot (s : State) (e : EventRecord) : (s.raise e).freeSnapshot = s.freeSnapshot := rfl
@[simp] theorem State.raise_sources (s : State) (e : EventRecord) : (s.raise e).sources = s.sources := rfl
@[simp] theorem State.raise_edges (s : State) (e : EventRecord) : (s.raise e).edges = s.edges := rfl
@[simp] theorem State.raise_engine (s : State) (e : EventRecord) : (s.raise e).engine = s.engine := rfl
@[simp] theorem State.raise_streak (s : State) (e : EventRecord) : (s.raise e).streak = s.streak := rfl
@[simp] theorem State.raise_port (s : State) (e : EventRecord) : (s.raise e).port = s.port := rfl
@[simp] theorem State.raise_host (s : State) (e : EventRecord) : (s.raise e).host = s.host := rfl
@[simp] theorem State.raise_events (s : State) (e : EventRecord) : (s.raise e).events = s.events.raise e := rfl
@[simp] theorem State.raise_link (s : State) (e : EventRecord) : (s.raise e).link = s.link := rfl
@[simp] theorem State.raise_resetting (s : State) (e : EventRecord) : (s.raise e).resetting = s.resetting := rfl
@[simp] theorem State.raise_pending (s : State) (e : EventRecord) : (s.raise e).pending = s.pending := rfl

/-! ### State.voidGroup -/

@[simp] theorem State.voidGroup_resetAsserted (s : State) (g : GroupNo) : (s.voidGroup g).resetAsserted = s.resetAsserted := rfl
@[simp] theorem State.voidGroup_groups (s : State) (g : GroupNo) : (s.voidGroup g).groups = s.groups := rfl
@[simp] theorem State.voidGroup_freeStage (s : State) (g : GroupNo) : (s.voidGroup g).freeStage = s.freeStage := rfl
@[simp] theorem State.voidGroup_freeSafe (s : State) (g : GroupNo) : (s.voidGroup g).freeSafe = s.freeSafe := rfl
@[simp] theorem State.voidGroup_freeSnapshot (s : State) (g : GroupNo) : (s.voidGroup g).freeSnapshot = s.freeSnapshot := rfl
@[simp] theorem State.voidGroup_sources (s : State) (g : GroupNo) : (s.voidGroup g).sources = s.sources := rfl
@[simp] theorem State.voidGroup_edges (s : State) (g : GroupNo) : (s.voidGroup g).edges = s.edges.map (Edge.voidGroup g) := rfl
@[simp] theorem State.voidGroup_engine (s : State) (g : GroupNo) : (s.voidGroup g).engine = s.engine := rfl
@[simp] theorem State.voidGroup_streak (s : State) (g : GroupNo) : (s.voidGroup g).streak = s.streak := rfl
@[simp] theorem State.voidGroup_port (s : State) (g : GroupNo) : (s.voidGroup g).port = s.port := rfl
@[simp] theorem State.voidGroup_host (s : State) (g : GroupNo) : (s.voidGroup g).host = s.host := rfl
@[simp] theorem State.voidGroup_events (s : State) (g : GroupNo) : (s.voidGroup g).events = s.events := rfl
@[simp] theorem State.voidGroup_link (s : State) (g : GroupNo) : (s.voidGroup g).link = s.link := rfl
@[simp] theorem State.voidGroup_resetting (s : State) (g : GroupNo) : (s.voidGroup g).resetting = s.resetting := rfl
@[simp] theorem State.voidGroup_pending (s : State) (g : GroupNo) : (s.voidGroup g).pending = s.pending := rfl

/-! ### State.voidChild -/

@[simp] theorem State.voidChild_resetAsserted (s : State) (c : SourceNo) : (s.voidChild c).resetAsserted = s.resetAsserted := rfl
@[simp] theorem State.voidChild_groups (s : State) (c : SourceNo) : (s.voidChild c).groups = s.groups := rfl
@[simp] theorem State.voidChild_freeStage (s : State) (c : SourceNo) : (s.voidChild c).freeStage = s.freeStage := rfl
@[simp] theorem State.voidChild_freeSafe (s : State) (c : SourceNo) : (s.voidChild c).freeSafe = s.freeSafe := rfl
@[simp] theorem State.voidChild_freeSnapshot (s : State) (c : SourceNo) : (s.voidChild c).freeSnapshot = s.freeSnapshot := rfl
@[simp] theorem State.voidChild_sources (s : State) (c : SourceNo) : (s.voidChild c).sources = s.sources := rfl
@[simp] theorem State.voidChild_edges (s : State) (c : SourceNo) : (s.voidChild c).edges = s.edges.map (Edge.voidChild c) := rfl
@[simp] theorem State.voidChild_engine (s : State) (c : SourceNo) : (s.voidChild c).engine = s.engine := rfl
@[simp] theorem State.voidChild_streak (s : State) (c : SourceNo) : (s.voidChild c).streak = s.streak := rfl
@[simp] theorem State.voidChild_port (s : State) (c : SourceNo) : (s.voidChild c).port = s.port := rfl
@[simp] theorem State.voidChild_host (s : State) (c : SourceNo) : (s.voidChild c).host = s.host := rfl
@[simp] theorem State.voidChild_events (s : State) (c : SourceNo) : (s.voidChild c).events = s.events := rfl
@[simp] theorem State.voidChild_link (s : State) (c : SourceNo) : (s.voidChild c).link = s.link := rfl
@[simp] theorem State.voidChild_resetting (s : State) (c : SourceNo) : (s.voidChild c).resetting = s.resetting := rfl
@[simp] theorem State.voidChild_pending (s : State) (c : SourceNo) : (s.voidChild c).pending = s.pending := rfl

/-! ### State.setActive -/

@[simp] theorem State.setActive_resetAsserted (s : State) (a : Option ActiveRequest) : (s.setActive a).resetAsserted = s.resetAsserted := rfl
@[simp] theorem State.setActive_groups (s : State) (a : Option ActiveRequest) : (s.setActive a).groups = s.groups := rfl
@[simp] theorem State.setActive_freeStage (s : State) (a : Option ActiveRequest) : (s.setActive a).freeStage = s.freeStage := rfl
@[simp] theorem State.setActive_freeSafe (s : State) (a : Option ActiveRequest) : (s.setActive a).freeSafe = s.freeSafe := rfl
@[simp] theorem State.setActive_freeSnapshot (s : State) (a : Option ActiveRequest) : (s.setActive a).freeSnapshot = s.freeSnapshot := rfl
@[simp] theorem State.setActive_sources (s : State) (a : Option ActiveRequest) : (s.setActive a).sources = s.sources := rfl
@[simp] theorem State.setActive_edges (s : State) (a : Option ActiveRequest) : (s.setActive a).edges = s.edges := rfl
@[simp] theorem State.setActive_engine (s : State) (a : Option ActiveRequest) : (s.setActive a).engine = s.engine := rfl
@[simp] theorem State.setActive_streak (s : State) (a : Option ActiveRequest) : (s.setActive a).streak = s.streak := rfl
@[simp] theorem State.setActive_port (s : State) (a : Option ActiveRequest) : (s.setActive a).port = s.port := rfl
@[simp] theorem State.setActive_host (s : State) (a : Option ActiveRequest) : (s.setActive a).host = { s.host with active := a } := rfl
@[simp] theorem State.setActive_events (s : State) (a : Option ActiveRequest) : (s.setActive a).events = s.events := rfl
@[simp] theorem State.setActive_link (s : State) (a : Option ActiveRequest) : (s.setActive a).link = s.link := rfl
@[simp] theorem State.setActive_resetting (s : State) (a : Option ActiveRequest) : (s.setActive a).resetting = s.resetting := rfl
@[simp] theorem State.setActive_pending (s : State) (a : Option ActiveRequest) : (s.setActive a).pending = s.pending := rfl

/-! ### State.frameEnds -/

@[simp] theorem State.frameEnds_resetAsserted (s : State) (r : Receive) (b : List Byte) : (s.frameEnds r b).resetAsserted = s.resetAsserted := rfl
@[simp] theorem State.frameEnds_groups (s : State) (r : Receive) (b : List Byte) : (s.frameEnds r b).groups = s.groups := rfl
@[simp] theorem State.frameEnds_freeStage (s : State) (r : Receive) (b : List Byte) : (s.frameEnds r b).freeStage = s.freeStage := rfl
@[simp] theorem State.frameEnds_freeSafe (s : State) (r : Receive) (b : List Byte) : (s.frameEnds r b).freeSafe = s.freeSafe := rfl
@[simp] theorem State.frameEnds_freeSnapshot (s : State) (r : Receive) (b : List Byte) : (s.frameEnds r b).freeSnapshot = s.freeSnapshot := rfl
@[simp] theorem State.frameEnds_sources (s : State) (r : Receive) (b : List Byte) : (s.frameEnds r b).sources = s.sources := rfl
@[simp] theorem State.frameEnds_edges (s : State) (r : Receive) (b : List Byte) : (s.frameEnds r b).edges = s.edges := rfl
@[simp] theorem State.frameEnds_engine (s : State) (r : Receive) (b : List Byte) : (s.frameEnds r b).engine = s.engine := rfl
@[simp] theorem State.frameEnds_streak (s : State) (r : Receive) (b : List Byte) : (s.frameEnds r b).streak = s.streak := rfl
@[simp] theorem State.frameEnds_port (s : State) (r : Receive) (b : List Byte) : (s.frameEnds r b).port = s.port := rfl
@[simp] theorem State.frameEnds_host (s : State) (r : Receive) (b : List Byte) : (s.frameEnds r b).host = s.host := rfl
@[simp] theorem State.frameEnds_events (s : State) (r : Receive) (b : List Byte) : (s.frameEnds r b).events = s.events := rfl
@[simp] theorem State.frameEnds_link (s : State) (r : Receive) (b : List Byte) : (s.frameEnds r b).link = { s.link with receive := r, received := b } := rfl
@[simp] theorem State.frameEnds_resetting (s : State) (r : Receive) (b : List Byte) : (s.frameEnds r b).resetting = s.resetting := rfl
@[simp] theorem State.frameEnds_pending (s : State) (r : Receive) (b : List Byte) : (s.frameEnds r b).pending = s.pending := rfl

/-! ### State.discardFrame -/

@[simp] theorem State.discardFrame_resetAsserted (s : State) : (s.discardFrame).resetAsserted = s.resetAsserted := rfl
@[simp] theorem State.discardFrame_groups (s : State) : (s.discardFrame).groups = s.groups := rfl
@[simp] theorem State.discardFrame_freeStage (s : State) : (s.discardFrame).freeStage = s.freeStage := rfl
@[simp] theorem State.discardFrame_freeSafe (s : State) : (s.discardFrame).freeSafe = s.freeSafe := rfl
@[simp] theorem State.discardFrame_freeSnapshot (s : State) : (s.discardFrame).freeSnapshot = s.freeSnapshot := rfl
@[simp] theorem State.discardFrame_sources (s : State) : (s.discardFrame).sources = s.sources := rfl
@[simp] theorem State.discardFrame_edges (s : State) : (s.discardFrame).edges = s.edges := rfl
@[simp] theorem State.discardFrame_engine (s : State) : (s.discardFrame).engine = s.engine := rfl
@[simp] theorem State.discardFrame_streak (s : State) : (s.discardFrame).streak = s.streak := rfl
@[simp] theorem State.discardFrame_port (s : State) : (s.discardFrame).port = s.port := rfl
@[simp] theorem State.discardFrame_host (s : State) : (s.discardFrame).host = s.host := rfl
@[simp] theorem State.discardFrame_events (s : State) : (s.discardFrame).events = s.events := rfl
@[simp] theorem State.discardFrame_link (s : State) : (s.discardFrame).link = { s.link with discarded := satSucc16 s.link.discarded } := rfl
@[simp] theorem State.discardFrame_resetting (s : State) : (s.discardFrame).resetting = s.resetting := rfl
@[simp] theorem State.discardFrame_pending (s : State) : (s.discardFrame).pending = s.pending := rfl

end Sys2Proof.Machine
end

