-- ==== Sys2Proof/Laws/Ops.lean ====
section
/-! SUPPORT. Reading a slot after an update, and what each shared operation can do, once for each, so that a proof cites it
instead of unfolding it. -/

namespace Sys2Proof.Machine

/-! ### Reading a group after an update -/

@[simp] theorem State.group_setGroup_same (s : State) (g : GroupNo) (x : Group) : (s.setGroup g x).group g = some x := by
  simp [State.group]

theorem State.group_setGroup_ne (s : State) {g h : GroupNo} (x : Group) (hne : g ≠ h) :
    (s.setGroup g x).group h = s.group h := by
  have : g.val ≠ h.val := fun e => hne (Fin.ext e)
  simp [State.group, this]

theorem State.group_setGroup (s : State) (g h : GroupNo) (x : Group) :
    (s.setGroup g x).group h = if g = h then some x else s.group h := by
  split
  · next e => subst e; simp
  · next e => exact State.group_setGroup_ne s x e

theorem State.group_clearGroup (s : State) (g h : GroupNo) :
    (s.clearGroup g).group h = if g = h then none else s.group h := by
  simp only [State.group, State.clearGroup_groups, Fin.getElem_fin, Vector.getElem_set, Fin.ext_iff]

@[simp] theorem State.setGroup_setGroup (s : State) (g : GroupNo) (x y : Group) :
    (s.setGroup g x).setGroup g y = s.setGroup g y := by
  simp [State.setGroup]

@[simp] theorem State.group_setSource (s : State) (n : SourceNo) (x : Source) (g : GroupNo) :
    (s.setSource n x).group g = s.group g := rfl
@[simp] theorem State.group_setFreeStage (s : State) (n : Nat) (g : GroupNo) : (s.setFreeStage n).group g = s.group g := rfl
@[simp] theorem State.group_setFreeSafe (s : State) (n : Nat) (g : GroupNo) : (s.setFreeSafe n).group g = s.group g := rfl
@[simp] theorem State.group_setFreeSnapshot (s : State) (n : Nat) (g : GroupNo) :
    (s.setFreeSnapshot n).group g = s.group g := rfl
@[simp] theorem State.group_setEdges (s : State) (es : List Edge) (g : GroupNo) : (s.setEdges es).group g = s.group g := rfl
@[simp] theorem State.group_setEngine (s : State) (e : Engine) (g : GroupNo) : (s.setEngine e).group g = s.group g := rfl
@[simp] theorem State.group_setHost (s : State) (h : HostPath) (g : GroupNo) : (s.setHost h).group g = s.group g := rfl
@[simp] theorem State.group_setPort (s : State) (p : Option PortUse) (g : GroupNo) : (s.setPort p).group g = s.group g := rfl
@[simp] theorem State.group_setEvents (s : State) (q : EventQueue) (g : GroupNo) : (s.setEvents q).group g = s.group g := rfl
@[simp] theorem State.group_setLink (s : State) (l : Link) (g : GroupNo) : (s.setLink l).group g = s.group g := rfl
@[simp] theorem State.group_appendJob (s : State) (j : Job) (g : GroupNo) : (s.appendJob j).group g = s.group g := rfl
@[simp] theorem State.group_setRunning (s : State) (j : Option Job) (g : GroupNo) :
    (s.setRunning j).group g = s.group g := rfl
@[simp] theorem State.group_respond (s : State) (st : Status) (tag : Byte) (p : List Byte) (g : GroupNo) :
    (s.respond st tag p).group g = s.group g := rfl
@[simp] theorem State.group_returnStage (s : State) (n : Nat) (g : GroupNo) : (s.returnStage n).group g = s.group g := rfl
@[simp] theorem State.group_raise (s : State) (e : EventRecord) (g : GroupNo) : (s.raise e).group g = s.group g := rfl
@[simp] theorem State.group_voidGroup (s : State) (h g : GroupNo) : (s.voidGroup h).group g = s.group g := rfl
@[simp] theorem State.group_voidChild (s : State) (c : SourceNo) (g : GroupNo) : (s.voidChild c).group g = s.group g := rfl
@[simp] theorem State.group_setActive (s : State) (a : Option ActiveRequest) (g : GroupNo) :
    (s.setActive a).group g = s.group g := rfl
@[simp] theorem State.group_frameEnds (s : State) (r : Receive) (b : List Byte) (g : GroupNo) :
    (s.frameEnds r b).group g = s.group g := rfl

/-! ### Reading a source after an update -/

@[simp] theorem State.source_setSource_same (s : State) (n : SourceNo) (x : Source) : (s.setSource n x).source n = x := by
  simp [State.source]

theorem State.source_setSource_ne (s : State) {n m : SourceNo} (x : Source) (hne : n ≠ m) :
    (s.setSource n x).source m = s.source m := by
  have : n.val ≠ m.val := fun e => hne (Fin.ext e)
  simp [State.source, this]

theorem State.source_setSource (s : State) (n m : SourceNo) (x : Source) :
    (s.setSource n x).source m = if n = m then x else s.source m := by
  split
  · next e => subst e; simp
  · next e => exact State.source_setSource_ne s x e

@[simp] theorem State.setSource_setSource (s : State) (n : SourceNo) (x y : Source) :
    (s.setSource n x).setSource n y = s.setSource n y := by
  simp [State.setSource]

@[simp] theorem State.source_setGroup (s : State) (g : GroupNo) (x : Group) (n : SourceNo) :
    (s.setGroup g x).source n = s.source n := rfl
@[simp] theorem State.source_setEdges (s : State) (es : List Edge) (n : SourceNo) : (s.setEdges es).source n = s.source n := rfl
@[simp] theorem State.source_returnStage (s : State) (k : Nat) (n : SourceNo) : (s.returnStage k).source n = s.source n := rfl
@[simp] theorem State.source_raise (s : State) (e : EventRecord) (n : SourceNo) : (s.raise e).source n = s.source n := rfl
@[simp] theorem State.source_setRunning (s : State) (j : Option Job) (n : SourceNo) :
    (s.setRunning j).source n = s.source n := rfl
@[simp] theorem State.source_voidChild (s : State) (c n : SourceNo) : (s.voidChild c).source n = s.source n := rfl
@[simp] theorem State.source_respond (s : State) (st : Status) (tag : Byte) (p : List Byte) (n : SourceNo) :
    (s.respond st tag p).source n = s.source n := rfl
@[simp] theorem State.source_frameEnds (s : State) (r : Receive) (b : List Byte) (n : SourceNo) :
    (s.frameEnds r b).source n = s.source n := rfl

/-! ### Outcomes and frames -/

@[simp] theorem unlessReset_of_false {s : State} (h : s.resetAsserted = false) (r : Result) : unlessReset s r = r := by
  simp [unlessReset, h]

/-- What a command that unlessReset guards answers: nothing has changed while the RESET input is asserted, and otherwise its
own answer. -/
theorem unlessReset_eq_next {s t : State} {r : Result} (h : unlessReset s r = .next t) :
    s.resetAsserted = true ∧ t = s ∨ s.resetAsserted = false ∧ r = .next t := by
  unfold unlessReset at h
  split at h
  · next hr => cases h; exact .inl ⟨hr, rfl⟩
  · next hr => exact .inr ⟨by simpa using hr, h⟩

/-- Everything a frame can do: nothing, during the RESET input or outside a frame; be discarded and counted, during
RESET_DEVICE; or have its effect after the receive state took it. -/
theorem takeFrame_eq_next {r : Receive} {b : List Byte} {s t : State} {e : State → State}
    (h : takeFrame r b s e = .next t) :
    t = s ∨ (s.resetAsserted = false ∧ s.resetting.isSome = true ∧ s.link.receive = .receiving ∧
      t = (s.frameEnds r b).discardFrame) ∨
    (s.resetAsserted = false ∧ s.resetting = none ∧ s.link.receive = .receiving ∧ t = e (s.frameEnds r b)) := by
  rcases unlessReset_eq_next h with ⟨-, ht⟩ | ⟨hr, h⟩
  · exact .inl ht
  · split at h
    · next hrec =>
      split at h
      · next hres => cases h; exact .inr (.inl ⟨hr, hres, hrec, rfl⟩)
      · next hres => cases h; exact .inr (.inr ⟨hr, by simpa using hres, hrec, rfl⟩)
    · cases h; exact .inl rfl

/-- A frame completes in an open select period outside both resets: its effect follows. -/
theorem takeFrame_of_ready {s : State} (r : Receive) (b : List Byte) (e : State → State)
    (h1 : s.resetAsserted = false) (h2 : s.resetting = none) (h3 : s.link.receive = .receiving) :
    takeFrame r b s e = .next (e (s.frameEnds r b)) := by
  simp [takeFrame, unlessReset, h1, h2, h3]

/-- A frame always answers a next state. -/
theorem takeFrame_answers (r : Receive) (b : List Byte) (s : State) (e : State → State) :
    ∃ t, takeFrame r b s e = .next t := by
  unfold takeFrame unlessReset
  split
  · exact ⟨_, rfl⟩
  · split
    · split <;> exact ⟨_, rfl⟩
    · exact ⟨_, rfl⟩

/-! ### Events -/

/-- Everything raising an event can do to the queue: nothing, an append, or a drop. -/
theorem EventQueue.raise_cases (q : EventQueue) (e : EventRecord) :
    (q.enabled e.kind = false ∧ q.raise e = q) ∨
    (q.enabled e.kind = true ∧ q.records.length < Config.eventSlots ∧
      q.raise e = { q with records := q.records ++ [e], alert := true }) ∨
    (q.enabled e.kind = true ∧ Config.eventSlots ≤ q.records.length ∧
      q.raise e = { q with dropCount := satSucc16 q.dropCount, alert := true }) := by
  unfold EventQueue.raise
  split
  · next he =>
    split
    · next hl => exact .inr (.inl ⟨he, hl, rfl⟩)
    · next hl => exact .inr (.inr ⟨he, Nat.le_of_not_lt hl, rfl⟩)
  · next he => exact .inl ⟨by simpa using he, rfl⟩

/-- A saturating counter that was raised is not 0. -/
theorem satSucc16_ne_zero (c : BitVec 16) : satSucc16 c ≠ 0 := by
  unfold satSucc16; split
  · next h => subst h; decide
  · next h => intro h'; apply h; bv_omega

/-! ### The engine at the end of a step -/

/-- What holds of a state, and survives a dispatch and the end of a phase, holds after the engine has gone on. -/
theorem pumpEngine_induct {P : State → Prop}
    (hd : ∀ s j rest, P s → s.engine.running = none → s.engine.queue = j :: rest → P (dispatch j rest s))
    (he : ∀ s j, P s → s.engine.running = some j → (s.group j.group).bind (nextRequest j) = none → P (endPhase j s)) :
    ∀ n s, P s → P (pumpEngine n s)
  | 0, _, h => h
  | n + 1, s, h => by
    unfold pumpEngine
    split
    · next hr =>
      split
      · exact h
      · next j rest hq => exact pumpEngine_induct hd he n _ (hd s j rest h hr hq)
    · next j hr =>
      split
      · exact h
      · next hn => exact pumpEngine_induct hd he n _ (he s j h hr hn)

/-- Everything the arrival of a host request together with the engine's can do: nothing, or the request that stands at a joined gap
waits for what it asks next (R118, log 27). -/
theorem joinHost_cases (s : State) :
    joinHost s = s ∨
    ∃ a h, s.host.active = some a ∧ s.port = none ∧ s.resetting = none ∧ s.engineAsk ≠ none ∧ a.wait = .nothing ∧
      a.taken ∈ a.gaps ∧ a.taken ∈ a.joined ∧ s.nextWait a = some h ∧
      joinHost s = s.setActive (some { a.passGap with wait := h }) := by
  unfold joinHost
  split
  · next a ha =>
    split
    · next hc =>
      simp only [Bool.and_eq_true, Option.isNone_iff_eq_none, decide_eq_true_eq] at hc
      obtain ⟨⟨⟨hp, hr⟩, he⟩, hw, hg, hj⟩ := hc
      split
      · next h hn => exact .inr ⟨a, h, ha, hp, hr, by rintro e; simp [e] at he, hw, hg, hj, hn, rfl⟩
      · exact .inl rfl
    · exact .inl rfl
  · exact .inl rfl

/-- Everything the arbiter can do: leave the port, grant it to the engine, or grant it to the host path (R118). -/
theorem arbitrate_cases (s : State) :
    arbitrate s = s ∨
    (∃ u n, s.port = none ∧ s.engineAsk = some u ∧ n ≤ s.streak + 1 ∧ (n = 0 ∨ s.streak < Config.streakLimit) ∧
      arbitrate s = grantEngine u n s) ∨
    (∃ v, s.port = none ∧ s.hostAsk = some v ∧ arbitrate s = grantHost v s) := by
  unfold arbitrate
  split
  · exact .inl rfl
  · next hp =>
    split
    · exact .inl rfl
    · next u hu _ => exact .inr (.inl ⟨u, 0, hp, hu, Nat.zero_le _, .inl rfl, rfl⟩)
    · next v _ hv => exact .inr (.inr ⟨v, hp, hv, rfl⟩)
    · next u v hu hv =>
      split
      · next hl => exact .inr (.inl ⟨u, _, hp, hu, Nat.le_refl _, .inr hl, rfl⟩)
      · exact .inr (.inr ⟨v, hp, hv, rfl⟩)

/-- What holds of a state, and survives a dispatch, the end of a phase, the arrival of a host request at a joined gap and a grant, holds
at the end of the step. -/
theorem settle_induct {P : State → Prop} {s : State}
    (hd : ∀ s j rest, P s → s.engine.running = none → s.engine.queue = j :: rest → P (dispatch j rest s))
    (he : ∀ s j, P s → s.engine.running = some j → (s.group j.group).bind (nextRequest j) = none → P (endPhase j s))
    (hj : ∀ s a h, P s → s.host.active = some a → s.resetting = none → a.wait = .nothing → s.nextWait a = some h →
      P (s.setActive (some { a.passGap with wait := h })))
    (hg : ∀ s u n, P s → s.port = none → s.engineAsk = some u → (n = 0 ∨ s.streak < Config.streakLimit ∧ n ≤ s.streak + 1) →
      P (grantEngine u n s))
    (hh : ∀ s v, P s → s.port = none → s.hostAsk = some v → P (grantHost v s)) (h : P s) : P (settle s) := by
  unfold settle
  have hp : P (joinHost (if s.engineBusy || s.resetting.isSome then s else pumpEngine s.pumpRounds s)) := by
    have hq : P (if s.engineBusy || s.resetting.isSome then s else pumpEngine s.pumpRounds s) := by
      split
      · exact h
      · exact pumpEngine_induct hd he _ _ h
    rcases joinHost_cases (if s.engineBusy || s.resetting.isSome then s else pumpEngine s.pumpRounds s) with
      e | ⟨a, w, ha, -, hr, -, hw, -, -, hn, e⟩
    · rw [e]; exact hq
    · rw [e]; exact hj _ _ _ hq ha hr hw hn
  rcases arbitrate_cases (joinHost (if s.engineBusy || s.resetting.isSome then s else pumpEngine s.pumpRounds s)) with
    e | ⟨u, n, e1, e2, e3, e4, e⟩ | ⟨v, e1, e2, e⟩
  · rw [e]; exact hp
  · rw [e]; exact hg _ _ _ hp e1 e2 (e4.imp id (fun h => ⟨h, e3⟩))
  · rw [e]; exact hh _ _ hp e1 e2

/-- With nothing to run, nothing asked for and the port free, the end of a step changes nothing. -/
theorem settle_idle {s : State} (h1 : s.engine.running = none) (h2 : s.engine.queue = []) (h3 : s.host.active = none)
    (h4 : s.resetting = none) : settle s = s := by
  have hp : ∀ n, pumpEngine n s = s := by
    intro n; cases n <;> simp [pumpEngine, h1, h2]
  have hj : joinHost s = s := by simp [joinHost, h3]
  have ha : arbitrate s = s := by
    unfold arbitrate
    split
    · rfl
    · simp [State.engineAsk, State.hostAsk, h1, h3, h4]
  simp only [settle, hp, hj, ha, ite_self]

end Sys2Proof.Machine
end

