-- ==== Sys2Proof/Laws/Groups.lean ====
section
/-! SUPPORT. What each shared operation on a group can do, once for each: staging, sealing, edges, completions and captures. -/

namespace Sys2Proof.Machine

/-- Everything the staging of a word can do: nothing, a merge, a new entry, or a refusal (R10 to R14, R37, R39). -/
theorem stageWord_cases (g : GroupNo) (off : Byte) (w : PortWord) (s : State) :
    stageWord g off w s = (false, s) ∨
    ∃ x f, s.group g = some x ∧ w.lanes ≠ 0 ∧ f = x.filling.getD Filling.fresh ∧
      ((Image.holds f.entries off = true ∧ stageWord g off w s = (false, s.setGroup g
          { x with filling := some { f with entries := Image.mergeAt f.entries off w.data w.lanes } })) ∨
      (Image.holds f.entries off = false ∧ s.freeStage = 0 ∧ stageWord g off w s = (true, refuseForPool g x f off s)) ∨
      (Image.holds f.entries off = false ∧ s.freeStage ≠ 0 ∧ stageWord g off w s = (false, (s.setGroup g
          { x with filling := some { f with
            entries := f.entries ++ [{ offset := off, data := w.data, lanes := w.lanes }] } }).setFreeStage
          (s.freeStage - 1)))) := by
  unfold stageWord
  cases hx : s.group g with
  | none => exact .inl rfl
  | some x =>
    by_cases hl : w.lanes = 0
    · exact .inl (by simp [hl])
    · refine .inr ⟨x, _, rfl, hl, rfl, ?_⟩
      by_cases hh : Image.holds (x.filling.getD Filling.fresh).entries off = true
      · exact .inl ⟨hh, by simp only [if_neg hl, if_pos hh]⟩
      · have hn : Image.holds (x.filling.getD Filling.fresh).entries off = false := by simpa using hh
        by_cases hf : s.freeStage = 0
        · exact .inr (.inl ⟨hn, hf, by simp only [if_neg hl, if_neg hh, if_pos hf]⟩)
        · exact .inr (.inr ⟨hn, hf, by simp only [if_neg hl, if_neg hh, if_neg hf]⟩)

/-- Everything a seal can do: nothing, or one of the four rows of R16. -/
theorem sealImage_cases (g : GroupNo) (s : State) :
    sealImage g s = s ∨
    ∃ x f, s.group g = some x ∧ x.filling = some f ∧
      ((f.damaged = true ∧ sealImage g s = discardDamaged g x f s) ∨
      (f.damaged = false ∧ x.armed = none ∧ sealImage g s = s.setGroup g { x with filling := none, armed := some f.entries }) ∨
      (∃ a, f.damaged = false ∧ x.armed = some a ∧ x.record.policy = .coalesce ∧ sealImage g s = coalesceSeal g x f a s) ∨
      (∃ a, f.damaged = false ∧ x.armed = some a ∧ x.record.policy = .reject ∧ sealImage g s = rejectSeal g x f s)) := by
  unfold sealImage
  split
  · exact .inl rfl
  · next x hx =>
    split
    · exact .inl rfl
    · next f hf =>
      refine .inr ⟨x, f, hx, hf, ?_⟩
      split
      · next hd => exact .inl ⟨hd, rfl⟩
      · next hd =>
        have hd : f.damaged = false := by simpa using hd
        split
        · next ha => exact .inr (.inl ⟨hd, ha, rfl⟩)
        · next a ha =>
          split
          · next hp => exact .inr (.inr (.inl ⟨a, hd, ha, hp, rfl⟩))
          · next hp => exact .inr (.inr (.inr ⟨a, hd, ha, hp, rfl⟩))

/-- Everything an edge can do to a group: nothing, or act on a LIVE or SAFE output group or a LIVE input group (R79). -/
theorem edgeToGroup_cases (g : GroupNo) (src : SourceNo) (epoch : BitVec 32) (s : State) :
    edgeToGroup g src epoch s = s ∨
    ∃ x, s.group g = some x ∧
      ((x.state = .live ∧ x.record.kind = .output ∧ edgeToGroup g src epoch s = edgeLive g x src epoch s) ∨
      (x.state = .safe ∧ x.record.kind = .output ∧ edgeToGroup g src epoch s = edgeSafe g x src epoch s) ∨
      (x.state = .live ∧ x.record.kind = .input ∧ edgeToGroup g src epoch s = edgeInput g x src epoch s)) := by
  unfold edgeToGroup
  split
  · exact .inl rfl
  · next x hx =>
    split
    · next h1 h2 => exact .inr ⟨x, hx, .inl ⟨h1, h2, rfl⟩⟩
    · next h1 h2 => exact .inr ⟨x, hx, .inr (.inl ⟨h1, h2, rfl⟩)⟩
    · next h1 h2 => exact .inr ⟨x, hx, .inr (.inr ⟨h1, h2, rfl⟩)⟩
    · exact .inl rfl
    · exact .inl rfl
    · exact .inl rfl

/-- Everything an edge can do to a LIVE output group (R20 to R24, R124). -/
theorem edgeLive_cases (g : GroupNo) (x : Group) (src : SourceNo) (epoch : BitVec 32) (s : State) :
    (∃ img, x.armed = some img ∧ x.committing ≠ none ∧ edgeLive g x src epoch s = edgeBehind g x src epoch s) ∨
    (∃ img, x.armed = some img ∧ x.committing = none ∧ edgeLive g x src epoch s = createCommit g x img epoch s) ∨
    (x.armed = none ∧ ∃ t, (t = s ∨ ∃ f, x.filling = some f ∧
        t = s.raise (edgeEvent .imageLate g src epoch f.entries.length)) ∧
      ((x.record.staleLimit = 0 ∧ edgeLive g x src epoch s = t) ∨
      (x.record.staleLimit ≠ 0 ∧ x.staleCount + 1 ≠ x.record.staleLimit ∧
        edgeLive g x src epoch s = t.setGroup g { x with staleCount := x.staleCount + 1 }) ∨
      (x.record.staleLimit ≠ 0 ∧ x.staleCount + 1 = x.record.staleLimit ∧
        edgeLive g x src epoch s = enterSafe g { x with staleCount := x.staleCount + 1 } src epoch t))) := by
  unfold edgeLive
  split
  · next img hi =>
    split
    · next hj => exact .inl ⟨img, hi, by simpa [Group.jobInFlight, Option.isSome_iff_ne_none] using hj, rfl⟩
    · next hj => exact .inr (.inl ⟨img, hi, by simpa [Group.jobInFlight] using hj, rfl⟩)
  · next hi =>
    refine .inr (.inr ⟨hi, raiseLate g x src epoch s, ?_, ?_⟩)
    · unfold raiseLate; split
      · next f hf => exact .inr ⟨f, hf, rfl⟩
      · exact .inl rfl
    · unfold advanceStale
      split
      · next h0 => exact .inl ⟨h0, rfl⟩
      · next h0 =>
        split
        · next h1 => exact .inr (.inr ⟨h0, h1, rfl⟩)
        · next h1 => exact .inr (.inl ⟨h0, h1, rfl⟩)

/-- Everything the entry into SAFE can do: freeze the group, make its SAFE job pending, or create it (R125, R126). -/
theorem enterSafe_cases (g : GroupNo) (x : Group) (src : SourceNo) (epoch : BitVec 32) (s : State) :
    (x.safeImage = none ∧ enterSafe g x src epoch s =
      (s.raise (edgeEvent .groupStale g src epoch 0)).setGroup g { x with state := .safe }) ∨
    (x.safeImage ≠ none ∧ x.committing ≠ none ∧ enterSafe g x src epoch s =
      (s.raise (edgeEvent .groupStale g src epoch 1)).setGroup g { x with state := .safe, pendingSafe := true }) ∨
    (x.safeImage ≠ none ∧ x.committing = none ∧ enterSafe g x src epoch s =
      createSafe g { x with state := .safe } epoch (s.raise (edgeEvent .groupStale g src epoch 1))) := by
  unfold enterSafe
  cases hs : x.safeImage with
  | none => exact .inl ⟨rfl, rfl⟩
  | some l =>
    cases hc : x.committing with
    | none => exact .inr (.inr ⟨nofun, rfl, by simp [Group.jobInFlight, hc]⟩)
    | some c => exact .inr (.inl ⟨nofun, nofun, by simp [Group.jobInFlight, hc]⟩)

/-- Everything an edge can do to an output group in SAFE (R128, R129). -/
theorem edgeSafe_cases (g : GroupNo) (x : Group) (src : SourceNo) (epoch : BitVec 32) (s : State) :
    edgeSafe g x src epoch s = s ∨
    (∃ img, x.record.latch = false ∧ x.armed = some img ∧ x.committing ≠ none ∧
      edgeSafe g x src epoch s = edgeBehind g x src epoch s) ∨
    (∃ img, x.record.latch = false ∧ x.armed = some img ∧ x.committing = none ∧ edgeSafe g x src epoch s =
      (createCommit g { x with state := .live } img epoch s).raise (edgeEvent .groupRecovered g src epoch 0)) := by
  unfold edgeSafe
  split
  · exact .inl rfl
  · next hl =>
    have hl : x.record.latch = false := by simpa using hl
    split
    · next img hi =>
      split
      · next hj => exact .inr (.inl ⟨img, hl, hi, by simpa [Group.jobInFlight, Option.isSome_iff_ne_none] using hj, rfl⟩)
      · next hj => exact .inr (.inr ⟨img, hl, hi, by simpa [Group.jobInFlight] using hj, rfl⟩)
    · exact .inl rfl

/-- Everything an edge can do to a LIVE input group: the hold step leaves a group y and raises at most HOLD_EXPIRED, and then
a capture is created or CAPTURE_BEHIND raised (R142, R143). -/
theorem edgeInput_cases (g : GroupNo) (x : Group) (src : SourceNo) (epoch : BitVec 32) (s : State) :
    ∃ y t, (y = x ∧ t = s ∨
        x.held = true ∧ y = { x with holdCount := satSucc8 x.holdCount } ∧ t = s ∨
        x.held = true ∧ y = { ({ x with holdCount := satSucc8 x.holdCount } : Group).swapPending with held := false } ∧
          t = s.raise (edgeEvent .holdExpired g src epoch (satSucc8 x.holdCount).toNat)) ∧
      ((y.captureInFlight = true ∧ edgeInput g x src epoch s =
          (t.setGroup g y).raise (edgeEvent .captureBehind g src epoch 0)) ∨
      (y.captureInFlight = false ∧ edgeInput g x src epoch s = createCapture g y epoch t)) := by
  refine ⟨(advanceHold g x src epoch s).1, (advanceHold g x src epoch s).2, ?_, ?_⟩
  · unfold advanceHold
    split
    · next hh =>
      simp only
      split
      · exact .inr (.inr ⟨hh, rfl, rfl⟩)
      · exact .inr (.inl ⟨hh, rfl, rfl⟩)
    · exact .inl ⟨rfl, rfl⟩
  · unfold edgeInput captureAtEdge
    split
    · next hc => exact .inl ⟨hc, rfl⟩
    · next hc => exact .inr ⟨by simpa using hc, rfl⟩

/-- Everything the completion of a COMMIT or SAFE job can do (R26, R108, R126). -/
theorem completeImageJob_cases (j : Job) (s : State) :
    completeImageJob j s = s ∨
    ∃ x y t, s.group j.group = some x ∧ x.record.kind = .output ∧
      y = { x with seqCount := j.count, committing := none } ∧
      t = s.returnStage (x.committing.elim 0 Committing.stageEntries) ∧
      ((x.state = .draining ∧ completeImageJob j s = (becomeDisabled j.group y t).raise (groupEvent .groupDrained j.group 0)) ∨
      (x.state = .safe ∧ x.pendingSafe = true ∧ completeImageJob j s =
        createSafe j.group y (t.source x.record.source).epoch t) ∨
      ((x.state ≠ .draining ∧ (x.state = .safe → x.pendingSafe = false)) ∧ completeImageJob j s = t.setGroup j.group y)) := by
  unfold completeImageJob
  split
  · exact .inl rfl
  · next x hx =>
    simp only
    split
    · exact .inl rfl
    · next hk hs => exact .inr ⟨x, _, _, hx, hk, rfl, rfl, .inl ⟨hs, rfl⟩⟩
    · next hk hs =>
      split
      · next hp => exact .inr ⟨x, _, _, hx, hk, rfl, rfl, .inr (.inl ⟨hs, hp, rfl⟩)⟩
      · next hp => exact .inr ⟨x, _, _, hx, hk, rfl, rfl, .inr (.inr ⟨⟨by simp [hs], fun _ => by simpa using hp⟩, rfl⟩)⟩
    · next hk hs => exact .inr ⟨x, _, _, hx, hk, rfl, rfl, .inr (.inr ⟨⟨by simp [hs], by simp [hs]⟩, rfl⟩)⟩
    · next hk hs => exact .inr ⟨x, _, _, hx, hk, rfl, rfl, .inr (.inr ⟨⟨by simp [hs], by simp [hs]⟩, rfl⟩)⟩

/-- A claim on an input group does nothing, or what it does to the input group of the slot. -/
theorem State.onInput_cases (g : GroupNo) (s : State) (k : Group → State) :
    s.onInput g k = s ∨ ∃ x, s.group g = some x ∧ x.record.kind = .input ∧ s.onInput g k = k x := by
  unfold State.onInput
  split
  · exact .inl rfl
  · next x hx =>
    split
    · next hk => exact .inr ⟨x, hx, hk, rfl⟩
    · exact .inl rfl

/-- Everything the end of a capture can do, completed or failed: nothing, the end of draining, or a change of the group alone that
keeps its record, its state and its images (R147, R148, R155). -/
theorem completeCapture_cases (j : Job) (s : State) :
    completeCapture j s = s ∨
    ∃ x, s.group j.group = some x ∧ x.record.kind = .input ∧
      ((x.state = .draining ∧ completeCapture j s = endInputDrain j.group x s) ∨
      (x.state ≠ .draining ∧ ∃ front back, completeCapture j s =
        s.setGroup j.group { x with captureInFlight := false, front := front, back := back })) := by
  unfold completeCapture
  rcases State.onInput_cases j.group s _ with h | ⟨x, hx, hk, h⟩
  · exact .inl h
  · rw [h]
    refine .inr ⟨x, hx, hk, ?_⟩
    simp only
    split
    · next hs => exact .inl ⟨hs, rfl⟩
    · next hs =>
      split
      · exact .inr ⟨by simp [hs], _, _, rfl⟩
      · exact .inr ⟨by simp [hs], _, _, rfl⟩
    · next hs => exact .inr ⟨by simp [hs], _, _, rfl⟩
    · next hs => exact .inr ⟨by simp [hs], _, _, rfl⟩

/-- Everything the failure of a capture can do (R148, R155). -/
theorem failCapture_cases (j : Job) (s : State) :
    failCapture j s = s ∨
    ∃ x, s.group j.group = some x ∧ x.record.kind = .input ∧
      ((x.state = .draining ∧ failCapture j s = endInputDrain j.group x s) ∨
      (x.state ≠ .draining ∧ failCapture j s =
        s.setGroup j.group { x with captureInFlight := false, back := .idle })) := by
  unfold failCapture
  rcases State.onInput_cases j.group s _ with h | ⟨x, hx, hk, h⟩
  · exact .inl h
  · rw [h]
    refine .inr ⟨x, hx, hk, ?_⟩
    split
    · next hs => exact .inl ⟨hs, rfl⟩
    · next hs => exact .inr ⟨by simp [hs], rfl⟩
    · next hs => exact .inr ⟨by simp [hs], rfl⟩
    · next hs => exact .inr ⟨by simp [hs], rfl⟩

/-- A write of the stamp word does nothing, or holds or releases the group and nothing else (R67, R149, R150). -/
theorem stampWrite_cases (g : GroupNo) (w : PortWord) (s : State) :
    stampWrite g w s = s ∨
    ∃ x, s.group g = some x ∧ (stampWrite g w s = s.setGroup g x.hold ∨ stampWrite g w s = s.setGroup g x.release) := by
  unfold stampWrite
  split
  · exact .inl rfl
  · next x hx =>
    split
    · split
      · exact .inr ⟨x, hx, .inl rfl⟩
      · exact .inr ⟨x, hx, .inr rfl⟩
    · exact .inl rfl

/-- The record, the state and the images of an input group do not change when a PENDING back bank swaps. -/
@[simp] theorem Group.swapPending_record (x : Group) : x.swapPending.record = x.record := by
  unfold Group.swapPending; split <;> rfl
@[simp] theorem Group.swapPending_state (x : Group) : x.swapPending.state = x.state := by
  unfold Group.swapPending; split <;> rfl
@[simp] theorem Group.swapPending_filling (x : Group) : x.swapPending.filling = x.filling := by
  unfold Group.swapPending; split <;> rfl
@[simp] theorem Group.swapPending_armed (x : Group) : x.swapPending.armed = x.armed := by
  unfold Group.swapPending; split <;> rfl
@[simp] theorem Group.swapPending_committing (x : Group) : x.swapPending.committing = x.committing := by
  unfold Group.swapPending; split <;> rfl
@[simp] theorem Group.swapPending_safeImage (x : Group) : x.swapPending.safeImage = x.safeImage := by
  unfold Group.swapPending; split <;> rfl
@[simp] theorem Group.swapPending_captureInFlight (x : Group) : x.swapPending.captureInFlight = x.captureInFlight := by
  unfold Group.swapPending; split <;> rfl

end Sys2Proof.Machine
end

