-- ==== Sys2Proof/Laws/Paths.lean ====
section
/-! SUPPORT. What the host path, the sources, the deliveries and the end of a reset can do, once for each. -/

namespace Sys2Proof.Machine

/-! ### Sources -/

/-- Everything a cause of an edge can do: consume the skip, or emit the edge (R78, R92). -/
theorem emitOrSkip_cases (n : SourceNo) (s : State) :
    ((s.source n).skip = true ∧ emitOrSkip n s = s.setSource n { s.source n with skip := false }) ∨
    ((s.source n).skip = false ∧ emitOrSkip n s = emitEdge n s) := by
  unfold emitOrSkip
  simp only
  split
  · next h => exact .inl ⟨h, rfl⟩
  · next h => exact .inr ⟨by simpa using h, rfl⟩

/-- The emission of an edge changes the source's epoch number and line and the waiting deliveries (R77, R78, R94). -/
theorem emitEdge_eq (n : SourceNo) (s : State) :
    emitEdge n s = { s with
      sources := s.sources.set n { s.source n with epoch := (s.source n).epoch + 1, line := !(s.source n).line }
      edges := (emitEdge n s).edges } := rfl

@[simp] theorem emitEdge_group (n : SourceNo) (s : State) (g : GroupNo) : (emitEdge n s).group g = s.group g := rfl

theorem emitEdge_source (n m : SourceNo) (s : State) : (emitEdge n s).source m =
    if n = m then { s.source n with epoch := (s.source n).epoch + 1, line := !(s.source n).line } else s.source m := by
  show (s.setSource n _).source m = _
  rw [State.source_setSource]

/-- Everything a parent's edge can do at a child: nothing, a count, or a division completed (R90). -/
theorem parentEdge_cases (c : SourceNo) (s : State) :
    parentEdge c s = s ∨
    ∃ r p d, (s.source c).running = true ∧ (s.source c).record = some r ∧ r.kind = .divided p d ∧
      (((s.source c).phase + 1 < d ∧ parentEdge c s = s.setSource c { s.source c with phase := (s.source c).phase + 1 }) ∨
      (d ≤ (s.source c).phase + 1 ∧ parentEdge c s = emitOrSkip c (s.setSource c { s.source c with phase := 0 }))) := by
  unfold parentEdge
  simp only
  split
  · next r hr hrec =>
    split
    · next p d hk =>
      split
      · next hp => exact .inr ⟨r, p, d, hr, hrec, hk, .inl ⟨hp, rfl⟩⟩
      · next hp => exact .inr ⟨r, p, d, hr, hrec, hk, .inr ⟨Nat.le_of_not_lt hp, rfl⟩⟩
    · exact .inl rfl
    · exact .inl rfl
  · exact .inl rfl

/-- A delivery to a group does nothing, takes a void offer away, or lets the group act (R79). -/
theorem deliverToGroup_cases (n : SourceNo) (g : GroupNo) (s : State) :
    deliverToGroup n g s = s ∨
    ∃ ep void rest, takeGroupOffer n g s.edges = some (ep, void, rest) ∧
      ((void = true ∧ deliverToGroup n g s = s.setEdges rest) ∨
      (void = false ∧ deliverToGroup n g s = settle (edgeToGroup g n ep (s.setEdges rest)))) := by
  unfold deliverToGroup
  split
  · exact .inl rfl
  · next ep void rest h =>
    split
    · next hv => exact .inr ⟨ep, void, rest, h, .inl ⟨hv, rfl⟩⟩
    · next hv => exact .inr ⟨ep, void, rest, h, .inr ⟨by simpa using hv, rfl⟩⟩

/-! ### The host path -/

/-- What holds of a state, and survives each word taken, each change of the active request and the response, holds after the host
path has taken words. -/
theorem takeWords_induct {P : State → Prop}
    (hw : ∀ s a w c, P s → s.host.active = some a → a.wait = .nothing → a.taken ∉ a.gaps → a.request.words[a.taken]? = some w →
      c = classify s a.nextAddr → forwarded s a.request.dir c = false → a.run = [] → P (takeWord a w c s))
    (hf : ∀ s a w, P s → s.host.active = some a → a.wait = .nothing → a.taken ∉ a.gaps → a.request.words[a.taken]? = some w →
      forwarded s a.request.dir (classify s a.nextAddr) = true →
      P (s.setActive (some { a with run := a.run ++ [w], taken := a.taken + 1 })))
    (hr : ∀ s a, P s → s.host.active = some a → a.wait = .nothing → a.taken ∉ a.gaps → a.run ≠ [] → P (s.setActive (some { a with wait := .run })))
    (hd : ∀ s a, P s → s.host.active = some a → a.wait = .nothing → a.taken ∉ a.gaps → a.request.words[a.taken]? = none → a.run = [] →
      P (respondHost { status := if a.faulted then .fault else .okay, data := a.data } s)) :
    ∀ n s, P s → P (takeWords n s)
  | 0, _, h => h
  | n + 1, s, h => by
    unfold takeWords
    split
    · exact h
    · next a ha =>
      split
      · exact h
      · next hn =>
        obtain ⟨hn, hk⟩ : a.wait = .nothing ∧ a.taken ∉ a.gaps := by simpa using hn
        split
        · next hnone =>
          split
          · next he => exact hd s a h ha hn hk hnone (by simpa using he)
          · next he => exact hr s a h ha hn hk (by simpa using he)
        · next w hw' =>
          simp only
          split
          · next hfw => exact takeWords_induct hw hf hr hd n _ (hf s a w h ha hn hk hw' hfw)
          · next hfw =>
            split
            · next he =>
              exact takeWords_induct hw hf hr hd n _
                (hw s a w _ h ha hn hk hw' rfl (by simpa using hfw) (by simpa using he))
            · next he => exact hr s a h ha hn hk (by simpa using he)

/-- After a word that is not forwarded has taken effect, its request has one word fewer to take, or waits. -/
theorem takeWord_active {a : ActiveRequest} {w : PortWord} {c : WordClass} {s : State}
    (hf : forwarded s a.request.dir c = false) :
    ∃ b, (takeWord a w c s).host.active = some b ∧ b.request = a.request ∧ (b.taken = a.taken + 1 ∨ b.wait ≠ .nothing) := by
  have h : ∀ v : Word × Lanes, ∃ b, (takeLayered a v s).host.active = some b ∧ b.request = a.request ∧
      (b.taken = a.taken + 1 ∨ b.wait ≠ .nothing) := by
    intro v; unfold takeLayered; split
    · exact ⟨_, rfl, rfl, .inl rfl⟩
    · exact ⟨_, rfl, rfl, .inr nofun⟩
  unfold takeWord
  rcases hd : a.request.dir <;> cases c <;> simp only [hd, forwarded] at hf ⊢ <;>
    first
    | exact h _
    | exact ⟨_, rfl, rfl, .inl rfl⟩
    | simp at hf

/-- One round more changes nothing once there are rounds enough for the words that are left (R55). -/
theorem takeWords_enough : ∀ (n : Nat) (s : State),
    (∀ a ∈ s.host.active, a.wait = .nothing → a.request.words.length ≤ a.taken + n) →
    takeWords (n + 2) s = takeWords (n + 1) s := by
  intro n
  induction n with
  | zero =>
    intro s h
    rw [takeWords, takeWords]
    rcases ha : s.host.active with _ | a <;> simp only
    split
    · rfl
    · next hw =>
      have : a.request.words[a.taken]? = none := by
        have := h a (by simp [ha]) (by simpa using (not_or.mp hw).1)
        simpa using this
      rw [this]
  | succ n ih =>
    intro s h
    rw [takeWords, takeWords]
    rcases ha : s.host.active with _ | a <;> simp only
    split
    · rfl
    · next hw =>
      have hl := h a (by simp [ha]) (by simpa using (not_or.mp hw).1)
      split
      · rfl
      · next w hw' =>
        split
        · next hfw =>
          exact ih _ (by intro b hb _; cases hb; simp only; omega)
        · next hfw =>
          split
          · next he =>
            obtain ⟨b, h1, h2, h3⟩ := takeWord_active (a := a) (w := w) (s := s) (by simpa using hfw)
            refine ih _ fun b' hb' hn => ?_
            rw [h1] at hb'; cases hb'
            rcases h3 with h3 | h3
            · rw [h2, h3]; omega
            · exact absurd hn h3
          · rfl
/-- Every number of rounds that is enough for the words that are left gives the same (R55). -/
theorem takeWords_rounds (n k : Nat) (s : State)
    (h : ∀ a ∈ s.host.active, a.wait = .nothing → a.request.words.length ≤ a.taken + n) :
    takeWords (n + 1 + k) s = takeWords (n + 1) s := by
  induction k with
  | zero => rfl
  | succ k ih =>
    rw [← ih, show n + 1 + (k + 1) = n + k + 2 by omega, show n + 1 + k = n + k + 1 by omega]
    exact takeWords_enough (n + k) s fun a ha hw => by have := h a ha hw; omega

/-- What a request can wait for next: its open run, or a layered read of a word it still has to take. -/
theorem nextWait_cases {s : State} {a : ActiveRequest} {h : HostWait} (hn : s.nextWait a = some h) :
    (h = .run ∧ a.run ≠ []) ∨
    (a.run = [] ∧ a.request.dir = .read ∧ a.taken < a.request.words.length ∧ ∃ image lanes, h = .layered image lanes) := by
  have hl : ∀ v : Word × Lanes, layeredWait v = some h → ∃ image lanes, h = .layered image lanes := by
    intro v hv
    unfold layeredWait at hv
    split at hv
    · cases hv
    · exact ⟨_, _, (Option.some.inj hv).symm⟩
  unfold State.nextWait at hn
  split at hn
  · split at hn
    · cases hn
    · next hr => exact .inl ⟨(Option.some.inj hn).symm, by simpa using hr⟩
  · next w hw =>
    split at hn
    · cases hn
    · split at hn
      · next hr => exact .inl ⟨(Option.some.inj hn).symm, by simpa using hr⟩
      · next hr =>
        have hlen := (List.getElem?_eq_some_iff.mp hw).1
        have hr : a.run = [] := by simpa using hr
        split at hn <;> first
          | cases hn
          | (next hd _ => exact .inr ⟨hr, hd, hlen, hl _ hn⟩)

/-- A request that waits takes no word. -/
theorem takeWords_waiting {s : State} {a : ActiveRequest} (n : Nat) (ha : s.host.active = some a) (hw : a.wait ≠ .nothing) :
    takeWords n s = s := by
  cases n with
  | zero => rfl
  | succ n => rw [takeWords]; simp [ha, hw]

/-- What the request asks for next is what it waits for when it takes words. -/
theorem takeWords_nextWait {s : State} {a : ActiveRequest} {h : HostWait} (n : Nat) (ha : s.host.active = some a)
    (hw : a.wait = .nothing) (hg : a.taken ∉ a.gaps) (hn : s.nextWait a = some h) :
    takeWords (n + 1) s = s.setActive (some { a with wait := h }) := by
  unfold State.nextWait at hn
  rw [takeWords]
  rcases hw' : a.request.words[a.taken]? with - | w
  · simp only [hw'] at hn
    split at hn
    · cases hn
    · next hr => cases hn; simp [ha, hw, hg, hw', hr]
  · simp only [ha, hw, hg, hw', ne_eq, not_true_eq_false, or_self, ↓reduceIte] at hn ⊢
    split at hn
    · cases hn
    · next hf =>
      have hf : forwarded s a.request.dir (classify s a.nextAddr) = false := by simpa using hf
      split at hn
      · next hr => cases hn; simp_all
      · next hr =>
        have hr : a.run.isEmpty = true := by simpa using hr
        have hl : ∀ v : Word × Lanes, layeredWait v = some h →
            takeWords n (takeLayered a v s) = s.setActive (some { a with wait := h }) := by
          intro v hv
          unfold layeredWait at hv
          split at hv
          · cases hv
          · next h0 => cases hv; rw [takeLayered, if_neg h0]; exact takeWords_waiting n rfl nofun
        simp only [hf, hr, Bool.false_eq_true, ↓reduceIte]
        split at hn <;> first
          | cases hn
          | (next hd hc => rw [← hl _ hn]; simp only [takeWord, hd, hc])

/-- Everything the enable of an output group does to the host path: nothing, or the write run that has not been issued ends before its
first word of the group and the host path goes on (R27, log 29). -/
theorem withdrawRun_cases (r : GroupRecord) (s : State) :
    withdrawRun r s = s ∨
    ∃ a k, s.host.active = some a ∧ s.writeWaits a = true ∧ k < a.run.length ∧ r.touches (a.runAddr k).toNat = true ∧
      withdrawRun r s = settle (runHost (s.setActive (some (a.cutRun k)))) := by
  unfold withdrawRun
  split
  · next a ha =>
    split
    · next hw =>
      split
      · next k hk =>
        exact .inr ⟨a, k, ha, hw, List.mem_range.mp (List.mem_of_find?_eq_some hk),
          List.find?_some (p := fun k => r.touches (a.runAddr k).toNat) hk, rfl⟩
      · exact .inl rfl
    · exact .inl rfl
  · exact .inl rfl

/-- What holds of a state, and survives the taking of words and the acceptance of a request that was held off, holds after the
host path has gone on. -/
theorem runHost_induct {P : State → Prop} (ht : ∀ s, P s → P (takeWords (Config.burstWords + 2) s))
    (ha : ∀ s r rest, P s → s.host.active = none → s.host.waiting = r :: rest →
      P (acceptRequest r (s.setHost { s.host with waiting := rest }))) {s : State} (h : P s) : P (runHost s) := by
  have hp : ∀ n s, P s → P (pumpHost n s) := by
    intro n
    induction n with
    | zero => exact fun _ h => h
    | succ n ih =>
      intro s h
      unfold pumpHost
      simp only
      split
      · next r rest h1 h2 => exact ih _ (ha _ r rest (ht s h) h1 h2)
      · exact ht s h
      · exact ht s h
  unfold runHost
  split
  · exact h
  · exact hp _ _ h

/-- Everything an empty queue can let happen: nothing, or a request that stands at a gap goes on (R55, log 8). -/
theorem tick_cases (s : State) :
    tick s = s ∨
    ∃ a, s.host.active = some a ∧ s.resetAsserted = false ∧ s.resetting = none ∧ a.wait = .nothing ∧
      tick s = settle (runHost (s.setActive (some a.passGap))) := by
  unfold tick
  split
  · next a ha =>
    split
    · exact .inl rfl
    · next h =>
      simp only [Bool.or_eq_true, decide_eq_true_eq, not_or, Bool.not_eq_true, Option.isSome_eq_false_iff,
        Option.isNone_iff_eq_none, ne_eq, not_not] at h
      exact .inr ⟨a, ha, h.1.1, h.1.2, h.2, rfl⟩
  · exact .inl rfl

/-- Everything a step can be: the front command on the rest of the queue, or what an empty queue lets happen. -/
theorem step_cases (s : State) :
    (s.pending = [] ∧ step s = .next (tick s)) ∨
    ∃ c rest, s.pending = c :: rest ∧ step s = exec c { s with pending := rest } := by
  unfold step
  split
  · next h => exact .inl ⟨h, rfl⟩
  · next c rest h => exact .inr ⟨c, rest, h, rfl⟩

/-- What the beginning of a reset can do to the request inside: nothing, or close its open run (R55, R69). -/
theorem closeRun_cases (a : ActiveRequest) :
    a.closeRun = a ∨ a.wait = .nothing ∧ a.run ≠ [] ∧ a.closeRun = { a with wait := .run } := by
  unfold ActiveRequest.closeRun
  split
  · next h => exact .inr ⟨h.1, h.2, rfl⟩
  · exact .inl rfl

/-- A host path with nothing inside it and nothing held off stands still. -/
theorem runHost_idle {s : State} (h1 : s.host.active = none) (h2 : s.host.waiting = []) : runHost s = s := by
  have ht : ∀ n, takeWords n s = s := by intro n; cases n <;> simp [takeWords, h1]
  unfold runHost
  split
  · rfl
  · simp [h2, pumpHost, ht, h1]

/-! ### The end of an answer and of a reset -/

/-- What follows an answer: the end of the step, the abandonment, or nothing while TORN writes are made (R120, R199). -/
theorem afterAnswer_cases (s : State) :
    (s.resetting = none ∧ afterAnswer s = settle s) ∨
    ∃ r, s.resetting = some r ∧ ((r.abandoned = true ∧ afterAnswer s = s) ∨ (r.abandoned = false ∧ afterAnswer s = abandon r s)) := by
  unfold afterAnswer
  split
  · next r hr =>
    split
    · next ha => exact .inr ⟨r, hr, .inl ⟨ha, rfl⟩⟩
    · next ha => exact .inr ⟨r, hr, .inr ⟨by simpa using ha, rfl⟩⟩
  · next hr => exact .inl ⟨hr, rfl⟩

/-- What an answer to a memory request of the running job needs, and what follows for the job (R51). -/
theorem jobAnswer_eq_next {p : Purpose} {s t : State} {k : Job → State → Result} (h : jobAnswer p s k = .next t) :
    ∃ q j, s.port = some ⟨p, q⟩ ∧ s.engine.running = some j ∧ k j (s.setPort none) = .next t := by
  unfold jobAnswer State.outstanding at h
  cases hp : s.port with
  | none => simp [hp] at h
  | some u =>
    obtain ⟨p', q⟩ := u
    by_cases he : p' = p
    · subst he
      cases hj : s.engine.running with
      | none => simp [hp, hj] at h
      | some j => exact ⟨q, j, rfl, rfl, by simpa [hp, hj] using h⟩
    · simp [hp, he] at h

/-- What an answer to a memory request of the host path needs, and what follows for the active request (R51). -/
theorem hostAnswer_eq_next {p : Purpose} {s t : State} {k : PortRequest → ActiveRequest → State → Result}
    (h : hostAnswer p s k = .next t) :
    ∃ q a, s.port = some ⟨p, q⟩ ∧ s.host.active = some a ∧ k q a (s.setPort none) = .next t := by
  unfold hostAnswer State.outstanding at h
  cases hp : s.port with
  | none => simp [hp] at h
  | some u =>
    obtain ⟨p', q⟩ := u
    by_cases he : p' = p
    · subst he
      cases hj : s.host.active with
      | none => simp [hp, hj] at h
      | some j => exact ⟨q, j, rfl, rfl, by simpa [hp, hj] using h⟩
    · simp [hp, he] at h

/-- What holds of a state, and survives each delivery to a group and to a child, holds after every waiting delivery was taken
(log 11). -/
theorem takeAllEdges_induct {P : State → Prop} (he : ∀ s es, P s → P (s.setEdges es))
    (hg : ∀ s g n ep, P s → P (settle (edgeToGroup g n ep s))) (hc : ∀ s c, P s → P (parentEdge c s)) {s : State}
    (h : P s) : P (takeAllEdges s) := by
  have hgs : ∀ (e : Edge) (os : List GroupOffer) s, P s →
      P (os.foldl (fun t o => if o.void then t else settle (edgeToGroup o.group e.source e.epoch t)) s) := by
    intro e os
    induction os with
    | nil => exact fun _ h => h
    | cons o os ih =>
      intro s h
      simp only [List.foldl_cons]
      split
      · exact ih s h
      · exact ih _ (hg s _ _ _ h)
  have hcs : ∀ (os : List ChildOffer) s, P s → P (os.foldl (fun t o => if o.void then t else parentEdge o.child t) s) := by
    intro os
    induction os with
    | nil => exact fun _ h => h
    | cons o os ih =>
      intro s h
      simp only [List.foldl_cons]
      split
      · exact ih s h
      · exact ih _ (hc s _ h)
  have hes : ∀ (es : List Edge) s, P s → P (es.foldl takeEdge s) := by
    intro es
    induction es with
    | nil => exact fun _ h => h
    | cons e es ih => exact fun s h => ih _ (hcs _ _ (hgs e _ _ h))
  have ht : ∀ s, P s → P (takeEdges s) := fun s h => hes _ _ (he s [] h)
  exact he _ _ (ht _ (ht _ (ht _ (ht _ h))))

end Sys2Proof.Machine
end

