-- ==== Sys2Proof/Tests/Slice0.lean ====
section
/-! SUPPORT. Tests: ill-formed terms are refused, single commands on small states with results taken from the spec's examples
and tables, and for each statement with hypotheses a state and operands that meet them, clause by clause. -/

namespace Sys2Proof.Tests

open Sys2Proof Sys2Proof.Machine Sys2Proof.Safety

/- The theorems are checked one after another: many kernel evaluations at once take a thread and its stack each. -/
set_option Elab.async false

/-! ## Small states -/

/-- What a field of the next state holds after a command; none where the command stops. -/
def after {α : Type} (i : Instr) (s : State) (f : State → α) : Option α :=
  match exec i s with
  | .next t => some (f t)
  | .fault _ => none
  | .refused _ => none

/-- The part after power-on, in a select period with no byte received yet. -/
def linkOpen : State := { State.reset with link := { State.reset.link with receive := .receiving } }

/-- An output group of 8 words with a sequence word. -/
def outRecord : GroupRecord :=
  { kind := .output, base := 0x2000, length := 8, source := 0, sealOffset := 7, seqAddr := some 0x2400, bbm := false
    policy := .coalesce, staleLimit := 2, latch := false, stampOffset := none, holdLimit := 0 }

/-- That group in LIVE. -/
def outLive : Group := { Group.defined outRecord with state := .live }

/-- An input group of 20 words with the stamp word at offset 19 and hold limit 3. -/
def inRecord : GroupRecord :=
  { kind := .input, base := 0x4000, length := 20, source := 0, sealOffset := 0, seqAddr := none, bbm := false
    policy := .coalesce, staleLimit := 0, latch := false, stampOffset := some 19, holdLimit := 3 }

/-- That group in LIVE. -/
def inLive : Group := { Group.defined inRecord with state := .live }

/-- A state with the group in slot G0. -/
def withGroup0 (x : Group) : State := linkOpen.setGroup 0 x

/-- A state with the group in slot G0 and one edge of ES0, epoch 61, offered to it. -/
def withEdge (x : Group) : State := (withGroup0 x).setEdges [⟨0, 61, [⟨0, false⟩], []⟩]

/-- A COMMIT job of G0. -/
def commitJob : Job :=
  { kind := .commit, group := 0, count := 1, epoch := 60, bbm := false, margin := 0, marginExpired := false, phase := .plain
    progress := 0, writingIssued := true, closingIssued := false, faulted := false, faultPosition := none
    releaseData := none }

/-- An image of one entry. -/
def image1 : Image := [⟨5, 0x11111111, 0xF⟩]

/-- A state in which the job of G0 runs and a request of it is outstanding. -/
def withJob (x : Group) (j : Job) (p : Purpose) : State :=
  ((withGroup0 x).setRunning (some j)).setPort (some ⟨p, ⟨.write, 0x805, [⟨0xF, 0x11111111⟩]⟩⟩)

/-- A TIMER source with a period of 10 units of 100 µs that runs. -/
def timerSource : Source :=
  { Source.undefined with record := some ⟨.us100, 0, .timer 10⟩, running := true, countdown := some 1000 }

/-- An EXTERNAL source on SYNC0, period 100 and guard 10 in µs, holdover limit 2, LOCKED. -/
def externalSource : Source :=
  { Source.undefined with record := some ⟨.us1, 0, .external 100 10 2 0⟩, running := true, lock := .locked, watch := some 110 }

/-- A DIVIDED source of ES0 with divisor 3, two parent edges counted. -/
def dividedSource : Source :=
  { Source.undefined with record := some ⟨.us1, 0, .divided 0 3⟩, running := true, phase := 2 }

/-- RESET_DEVICE under execution with the port busy. -/
def resettingState : State := { linkOpen with resetting := some ⟨9, false, []⟩ }

/-- Fields of a DEFINE_SOURCE that define ES1 as a TIMER with margin one below its period. -/
def timerFields : SourceFields :=
  { source := 1, kind := 0, unit := 3, period := 5, margin := 4, guard := 0, holdoverLimit := 0, syncLine := 9, parent := 9
    divisor := 0 }

/-- Fields of a DEFINE_GROUP that define G31 as an output group whose last word is the last word of memory. -/
def topFields : GroupFields :=
  { group := 31, kind := 0, base := 0x3FFFC00, length := 256, source := 3, sealOffset := 255, seqPresent := 1
    seqAddr := 0x3FFFBFC, bbm := 1, policy := 1, staleLimit := 0, latch := 1, stampPresent := 7, stampOffset := 0
    holdLimit := 0 }

/-! ## Ill-formed terms -/

theorem test_illFormed_host_request_empty : (Instr.hostRequest ⟨⟨.write, 0, []⟩, [], []⟩).wellFormed = false := by decide
theorem test_illFormed_host_request_17_words :
    (Instr.hostRequest ⟨⟨.write, 0, List.replicate 17 ⟨0xF, 0⟩⟩, [], []⟩).wellFormed = false := by decide
theorem test_illFormed_read_with_data : (Instr.hostRequest ⟨⟨.read, 0, [⟨0xF, 1⟩]⟩, [], []⟩).wellFormed = false := by decide
theorem test_illFormed_truncated_empty : (Instr.frameTruncated []).wellFormed = false := by decide
theorem test_illFormed_truncated_complete : (Instr.frameTruncated [0, 0, 0, 0]).wellFormed = false := by decide +kernel
theorem test_illFormed_refused_nop : (Instr.frameRefused [0, 0, 0, 0]).wellFormed = false := by decide +kernel
theorem test_illFormed_discarded_nop : (Instr.frameDiscarded [0, 0, 0, 0]).wellFormed = false := by decide +kernel
theorem test_illFormed_load_safe_50 :
    (Instr.loadSafe 0 0 0 (List.replicate 50 ⟨0, 0⟩)).wellFormed = false := by decide
theorem test_illFormed_faults :
    exec (.hostRequest ⟨⟨.write, 0, []⟩, [], []⟩) linkOpen = .fault .illFormed := rfl

/-! ## Frames and formats (R177, chapter 10) -/

theorem test_crc8_reference : crc8 [0x01] = 0x07 := by decide
theorem test_crc8_check_string :
    crc8 [0x31, 0x32, 0x33, 0x34, 0x35, 0x36, 0x37, 0x38, 0x39] = 0xF4 := by decide +kernel
theorem test_frame_read_device : examineFrame [0x02, 0x03, 0x00, 0xE9] = .accepted (.readDevice 0x03) := by decide +kernel
theorem test_frame_nop_zeros : examineFrame [0, 0, 0, 0] = .accepted (.nop 0) := by decide +kernel
theorem test_frame_response_ok : Response.bytes ⟨.ok, 0x05, []⟩ = [0x00, 0x05, 0x00, 0x41] := by decide +kernel
theorem test_frame_mask : framePayload (.setEventMask 9 0xFFFD) = some (.setEventMask, 9, [0xFF, 0xFD]) := by decide
theorem test_frame_load_safe :
    decodePayload 7 .loadSafe [9, 1, 3, 0x12, 0x34, 0x56, 0x78] = some (.loadSafe 7 9 1 [⟨3, 0x12345678⟩]) := by decide
theorem test_frame_skip_edge : decodePayload 7 .skipEdge [3, 1] = some (.skipEdge 7 3 1) := by decide
theorem test_record_commit_fault : EventRecord.bytes (jobEvent .commitFault 6 900 2) =
    [0xA6, 0x06, 0x00, 0x00, 0x00, 0x03, 0x84, 0x00, 0x02] := by decide
theorem test_record_group_stale : EventRecord.bytes (edgeEvent .groupStale 1 0 300 1) =
    [0xE7, 0x01, 0x00, 0x00, 0x00, 0x01, 0x2C, 0x00, 0x01] := by decide
theorem test_sequence_word_torn : seqWordOf seqTorn 13 = 0x8000000D := by decide
theorem test_sequence_word_writing : seqWordOf seqWriting 12 = 0x4000000C := by decide
theorem test_stamp_word_held_pending :
    stampWord { inLive with front := some ⟨10, []⟩, held := true, back := .pending ⟨11, []⟩ } = 0x6000000A := by decide
theorem test_stamp_word_empty : stampWord inLive = 0x80000000 := by decide

/-! ## One command each, with results from the spec's examples -/

/-- Section 1.5's example: the seal word coalesces filling 1, 7 into armed 3, 0, 7. -/
theorem test_seal_coalesce_order :
    (Image.coalesce [⟨3, 1, 0xF⟩, ⟨0, 2, 0xF⟩, ⟨7, 3, 0xF⟩] [⟨1, 4, 0x3⟩, ⟨7, 5, 0xF⟩]) =
      [⟨3, 1, 0xF⟩, ⟨0, 2, 0xF⟩, ⟨7, 5, 0xF⟩, ⟨1, 4, 0x3⟩] := by decide
/-- Section 2.9's second example: a word refused for lack of an entry damages the image and answers FAULT. -/
theorem test_host_write_pool_empty :
    after (.hostRequest (oneWord .write 0x802 ⟨0xF, 1⟩))
      ((withGroup0 { outLive with filling := some ⟨[⟨0, 1, 0xF⟩, ⟨1, 1, 0xF⟩], false⟩ }).setFreeStage 0)
      (fun t => (t.host.responses.map HostResponse.status, t.events.records.map EventRecord.detail,
        ((t.group 0).bind Group.filling).map Filling.damaged)) = some ([.fault], [2], some true) := by decide
/-- Section 2.9's second example: the seal of the damaged image returns its entries. -/
theorem test_host_seal_damaged :
    after (.hostRequest (oneWord .write 0x807 ⟨0xF, 1⟩))
      ((withGroup0 { outLive with filling := some ⟨[⟨0, 1, 0xF⟩, ⟨1, 1, 0xF⟩], true⟩ }).setFreeStage 0)
      (fun t => (t.freeStage, t.events.records, (t.group 0).map (fun x => (x.filling, x.damaged)))) =
      some (2, [groupEvent .imageDamaged 0 2], some (none, 1)) := by decide
/-- Section 2.9's second burst: eight words to one group, all lanes enabled, with a gap between words 4 and 5. -/
def burst8 : HostRequest := ⟨⟨.write, 0x800, List.replicate 8 ⟨0xF, 1⟩⟩, [5], []⟩

/-- The state section 2.9's second example reaches between words 4 and 5, once six entries have been returned. -/
def atGap5 : State :=
  ((withGroup0 { outLive with filling := some ⟨[⟨0, 1, 0xF⟩, ⟨1, 1, 0xF⟩], true⟩ }).setFreeStage 6).setActive
    (some { ActiveRequest.accepted burst8 with taken := 5, faulted := true })

/-- Section 2.9's second example: words 0 and 1 are staged, words 2 to 4 are refused, and the request stands between words 4
and 5. -/
theorem test_host_burst_stands_at_gap :
    after (.hostRequest burst8) ((withGroup0 outLive).setFreeStage 2)
      (fun t => (t.host.active.map ActiveRequest.taken, t.freeStage, t.events.records.map EventRecord.detail)) =
      some (some 5, 0, [2]) := by decide +kernel
/-- Section 2.9's second example: words 5, 6 and 7 are staged, the seal discards five entries, and the burst answers FAULT. -/
theorem test_host_burst_goes_on :
    ((tick atGap5).host.responses, (tick atGap5).freeStage, (tick atGap5).events.records) =
      ([⟨.fault, []⟩], 8, [groupEvent .imageDamaged 0 5]) := by decide +kernel
/-- R55, third point: a run found open by RESET_DEVICE is issued when the reset ends, as one request of the words it holds. -/
theorem test_reset_device_closes_run :
    after (.resetDevice 9)
      (linkOpen.setActive (some ⟨⟨.read, 0, [⟨0xF, 0⟩, ⟨0x3, 0⟩]⟩, 1, [⟨0xF, 0⟩], false, [], .nothing, [1], []⟩))
      (fun t => (t.resetting, t.port)) = some (none, some ⟨.run, ⟨.read, 0, [⟨0xF, 0⟩]⟩⟩) := by decide +kernel
/-- A request whose run is complete and open, at a joined gap after its last word. -/
def joinedRun : ActiveRequest := ⟨⟨.write, 0, [⟨0xF, 0⟩]⟩, 1, [⟨0xF, 0⟩], false, [], .nothing, [1], [1]⟩

/-- R118: an edge's job and a run that arrive together at a free port are both waiting at the grant: the engine, and the streak
is 1. -/
theorem test_engine_and_host_arrive_together :
    after (.edgeDelivery 0 0) ((withEdge { outLive with armed := some image1 }).setActive (some joinedRun))
      (fun t => (t.port.map PortUse.purpose, t.streak, t.hostAsk)) =
      some (some .opening, 1, some ⟨.run, ⟨.write, 0, [⟨0xF, 0⟩]⟩⟩) := by decide +kernel
/-- R118: a request at a joined gap that takes a word first does not arrive with the job, which is granted alone. -/
theorem test_engine_arrives_alone :
    after (.edgeDelivery 0 0) ((withEdge { outLive with armed := some image1 }).setActive
        (some { joinedRun with request := ⟨.write, 0, [⟨0xF, 0⟩, ⟨0xF, 0⟩]⟩ }))
      (fun t => (t.port.map PortUse.purpose, t.streak, t.hostAsk)) = some (some .opening, 0, none) := by decide +kernel
/-- R27, R207: the run's first word stays, and the word of the group that is enabled, its sequence word, is taken afresh and refused. -/
theorem test_enable_group_ends_run :
    after (.enableGroup 1 0)
      (((withGroup0 (Group.defined outRecord)).setActive
        (some ⟨⟨.write, 0x8FF, [⟨0xF, 1⟩, ⟨0xF, 2⟩]⟩, 2, [⟨0xF, 1⟩, ⟨0xF, 2⟩], false, [], .run, [], []⟩)).setPort
        (some ⟨.burst, ⟨.read, 0x1000, [⟨0xF, 0⟩]⟩⟩))
      (fun t => (t.hostAsk, t.host.active.map ActiveRequest.taken)) =
      some (some ⟨.run, ⟨.write, 0x8FF, [⟨0xF, 1⟩]⟩⟩, some 1) := by decide +kernel
/-- R57: the read data of a run answered FAULT are zeros. -/
theorem test_run_response_fault :
    after (.runResponse .fault [])
      ((linkOpen.setActive (some ⟨⟨.read, 0, [⟨0xF, 0⟩]⟩, 1, [⟨0xF, 0⟩], false, [], .run, [], []⟩)).setPort
        (some ⟨.run, ⟨.read, 0, [⟨0xF, 0⟩]⟩⟩)) (fun t => t.host.responses) = some [⟨.fault, [0]⟩] := by decide
/-- R61: memory supplies the lanes no image holds. -/
theorem test_layered_read_response :
    after (.layeredReadResponse .okay 0xAABBCCDD)
      ((linkOpen.setActive (some ⟨⟨.read, 0x800, [⟨0x7, 0⟩]⟩, 0, [], false, [], .layered 0x00000011 0x6, [], []⟩)).setPort
        (some ⟨.layered, ⟨.read, 0x800, [⟨0x6, 0⟩]⟩⟩)) (fun t => t.host.responses) =
      some [⟨.okay, [0x00BBCC11]⟩] := by decide
/-- Section 4.10's example at 1.0: the countdown expires and ES0 emits its first edge. -/
theorem test_timer_expiry :
    after (.timerExpiry 0) (linkOpen.setSource 0 timerSource)
      (fun t => ((t.source 0).epoch, (t.source 0).line, (t.source 0).countdown)) = some (1, true, some 1000) := by decide
/-- Section 4.10's example at 4.0: the skip is consumed and the countdown reloads. -/
theorem test_timer_expiry_skipped :
    after (.timerExpiry 0) (linkOpen.setSource 0 { timerSource with skip := true, epoch := 3 })
      (fun t => ((t.source 0).epoch, (t.source 0).skip, (t.source 0).countdown)) = some (3, false, some 1000) := by decide
/-- R87: in an open absorb window the edge is absorbed, and the source is LOCKED again. -/
theorem test_sync_edge_absorbed :
    after (.syncRisingEdge 0)
      (linkOpen.setSource 0 { externalSource with lock := .holdover, holdover := 1, watch := none, standIn := some 100
                                                  absorbWindow := some 10, epoch := 4 })
      (fun t => ((t.source 0).lock, (t.source 0).epoch, (t.source 0).watch)) = some (.locked, 4, some 110) := by decide
/-- R85: the first stand-in edge, with SYNC_MISSED. -/
theorem test_watch_expiry :
    after (.watchExpiry 0) (linkOpen.setSource 0 externalSource)
      (fun t => ((t.source 0).lock, (t.source 0).standIn, t.events.records)) =
      some (.holdover, some 100, [sourceEvent .syncMissed 0 1 0]) := by decide
/-- R86: at the holdover limit the source is LOST, with SYNC_LOST and the holdover count. -/
theorem test_stand_in_expiry_lost :
    after (.standInExpiry 0)
      (linkOpen.setSource 0 { externalSource with lock := .holdover, holdover := 2, watch := none, standIn := some 100 })
      (fun t => ((t.source 0).lock, (t.source 0).standIn, t.events.records)) =
      some (.lost, none, [sourceEvent .syncLost 0 0 2]) := by decide
theorem test_absorb_window_close :
    after (.absorbWindowClose 0)
      (linkOpen.setSource 0 { externalSource with lock := .holdover, standIn := some 100, absorbWindow := some 10 })
      (fun t => ((t.source 0).lock, (t.source 0).absorbWindow)) = some (.holdover, none) := by decide
/-- Section 6.5's example: edge 62 brings the group to its stale limit while job 11 is in flight. -/
theorem test_edge_delivery_stale :
    after (.edgeDelivery 0 0)
      (withEdge { outLive with staleCount := 1, safeImage := some [⟨0, 1⟩], committing := some (.commit image1) })
      (fun t => ((t.group 0).map (fun x => (x.state, x.staleCount, x.pendingSafe)), t.events.records)) =
      some (some (.safe, 2, true), [edgeEvent .groupStale 0 0 61 1]) := by decide
/-- Section 7.9's example: at edge 13 the hold expires and PENDING 12 swaps to the front. -/
theorem test_edge_delivery_hold_expired :
    after (.edgeDelivery 0 0)
      (withEdge { inLive with held := true, holdCount := 2, front := some ⟨10, []⟩, back := .pending ⟨12, []⟩ })
      (fun t => ((t.group 0).map (fun x => (x.front.map Bank.epoch, x.held, x.captureInFlight)), t.events.records)) =
      some (some (some 12, false, true), [edgeEvent .holdExpired 0 0 61 3]) := by decide
/-- Section 4.10's example at 3.0: the third parent edge completes a division. -/
theorem test_parent_edge_delivery :
    after (.parentEdgeDelivery 0 1) ((linkOpen.setSource 1 dividedSource).setEdges [⟨0, 3, [], [⟨1, false⟩]⟩])
      (fun t => ((t.source 1).phase, (t.source 1).epoch, t.edges)) = some (0, 1, []) := by decide
/-- Section 5.10's first example: the opening write is answered and the first entry is written. -/
theorem test_opening_write_response :
    after (.openingWriteResponse .okay) (withJob { outLive with committing := some (.commit image1) } commitJob .opening)
      (fun t => t.port) = some (some ⟨.dataWrite, ⟨.write, 0x805, [⟨0xF, 0x11111111⟩]⟩⟩) := by decide
/-- Section 5.10's first example: a faulted data write sets the position, and the closing write is TORN. -/
theorem test_data_write_response :
    after (.dataWriteResponse .fault) (withJob { outLive with committing := some (.commit image1) } commitJob .dataWrite)
      (fun t => (t.port, t.engine.running.map Job.faultPosition)) =
      some (some ⟨.closing, ⟨.write, 0x900, [⟨0xF, 0x80000001⟩]⟩⟩, some (some (.offset 5))) := by decide
/-- Section 5.10's second example: the word read is ANDed with the new one. -/
theorem test_release_read_response :
    after (.releaseReadResponse .okay 0x00000003)
      (withJob { outLive with committing := some (.commit [⟨0, 0x0000000C, 0xF⟩]) }
        { commitJob with phase := .release, bbm := true } .releaseRead)
      (fun t => t.port) = some (some ⟨.releaseWrite, ⟨.write, 0x800, [⟨0xF, 0⟩]⟩⟩) := by decide
/-- Section 5.10's second example: after its last release pair the job waits on the margin list. -/
theorem test_release_write_response :
    after (.releaseWriteResponse .okay)
      (withJob { outLive with committing := some (.commit image1) }
        { commitJob with phase := .release, bbm := true, releaseData := some 0 } .releaseWrite)
      (fun t => (t.engine.running, t.engine.marginList.map Job.phase)) = some (none, [.engage]) := by decide
/-- Section 5.10's second example: at 200 the margin expires and the job runs in ENGAGE. -/
theorem test_margin_expiry :
    after (.marginExpiry 0)
      ((withGroup0 { outLive with committing := some (.commit image1) }).setEngine
        { queue := [], running := none, marginList := [{ commitJob with phase := .engage, bbm := true }] })
      (fun t => (t.engine.marginList, t.port.map PortUse.purpose)) = some ([], some .dataWrite) := by decide
/-- Section 5.10's first example: the close of a faulted job, whose group then has the job's count. -/
theorem test_closing_write_response :
    after (.closingWriteResponse .okay)
      (withJob { outLive with committing := some (.commit image1) }
        { commitJob with progress := 1, faulted := true, faultPosition := some (.offset 2) } .closing)
      (fun t => ((t.group 0).map (fun x => (x.seqCount, x.committing)), t.events.records, t.freeStage)) =
      some (some (1, none), [jobEvent .commitFault 0 60 2], 4097) := by decide
/-- Section 7.9's second example: the fault at the second burst ends the draining. -/
theorem test_capture_burst_fault_draining :
    after (.captureBurstResponse .fault [])
      ((((linkOpen.setGroup 0 { inLive with state := .draining, captureInFlight := true, back := .filling [] }).setFreeSnapshot
        2008).setRunning (some { newCaptureJob 0 71 with progress := 16 })).setPort
        (some ⟨.burst, ⟨.read, 0x1010, List.replicate 4 ⟨0xF, 0⟩⟩⟩))
      (fun t => ((t.group 0).map Group.state, t.freeSnapshot, t.events.records)) =
      some (some .disabled, 2048, [jobEvent .captureFault 0 71 16, groupEvent .groupDrained 0 0]) := by decide
theorem test_transfer_start :
    after .transferStart State.reset (fun t => (t.link.receive, t.mdoByte true 0, t.mdoByte true 4)) =
      some (.receiving, some 0x03, some 0xFF) := by decide
theorem test_mdo_not_driven :
    (State.reset.mdoByte true 0, { linkOpen with resetAsserted := true }.mdoByte true 0, linkOpen.mdoByte false 0) =
      (none, none, none) := by decide
/-- R174: the status POWERED, 03H, crosses the link most significant bit first. -/
theorem test_mdo_bits : (List.range 8).map (linkOpen.mdoBit true) =
    [some false, some false, some false, some false, some false, some false, some true, some true] := by decide
/-- R174: the bits of a byte that is not complete are discarded. -/
theorem test_wire_bytes : wireBytes [false, false, false, false, false, false, true, false, true, true] = [0x02] := by decide
theorem test_transfer_command_truncated :
    transferCommand (([0x02, 0x03] : List Byte).flatMap byteBits ++ [true]) = some (.frameTruncated [0x02, 0x03]) := by decide
/-- Section 9.11's frame with a byte after it: what follows a complete frame is ignored. -/
theorem test_transfer_command :
    transferCommand (([0x02, 0x03, 0x00, 0xE9, 0x55] : List Byte).flatMap byteBits) = some (.readDevice 0x03) := by decide +kernel
theorem test_frame_truncated :
    after (.frameTruncated [0x02, 0x03]) linkOpen (fun t => t.link.response) = some ⟨.truncated, 0, []⟩ := by decide
theorem test_frame_refused_length :
    after (.frameRefused [0x02, 0x03, 251]) linkOpen (fun t => t.link.response) = some ⟨.badLength, 3, []⟩ := by decide
theorem test_frame_discarded :
    after (.frameDiscarded [0x02, 0x03, 0x00, 0xE9]) resettingState (fun t => (t.link.discarded, t.link.response)) =
      some (1, Response.powered) := by decide +kernel
theorem test_nop_keeps_response :
    after (.nop 4) linkOpen (fun t => t.link.response) = some Response.powered := by decide
theorem test_identify :
    after (.identify 4) linkOpen (fun t => t.link.response) = some ⟨.ok, 4, [0, 0xCD, 0x12, 0x0C, 1]⟩ := by decide
/-- Section 5.10's second example with RESET_DEVICE at 100: one TORN write carrying count 8. -/
theorem test_reset_device_torn :
    after (.resetDevice 9)
      ((withGroup0 { outLive with committing := some (.commit image1), seqCount := 7 }).setEngine
        { queue := [], running := none, marginList := [{ commitJob with phase := .engage, bbm := true, count := 8 }] })
      (fun t => (t.port, (t.group 0).map (fun x => (x.state, x.seqCount)), t.link.response)) =
      some (some ⟨.torn, ⟨.write, 0x900, [⟨0xF, 0x80000008⟩]⟩⟩, some (.disabled, 7), ⟨.notReady, 9, []⟩) := by decide +kernel
theorem test_torn_write_response :
    after (.tornWriteResponse .fault)
      ({ linkOpen with resetting := some ⟨9, true, [⟨0x900, 8⟩]⟩ }.setPort (some ⟨.torn, ⟨.write, 0x900, [⟨0xF, 0x80000008⟩]⟩⟩))
      (fun t => (t.resetting, t.link.response, t.port)) = some (none, ⟨.ok, 9, []⟩, none) := by decide
theorem test_define_source :
    after (.defineSource 1 timerFields) linkOpen (fun t => (t.source 1).record) =
      some (some ⟨.ms1, 4, .timer 5⟩) := by decide
theorem test_start_source :
    after (.startSource 1 0) (linkOpen.setSource 0 { timerSource with running := false, countdown := none, epoch := 7 })
      (fun t => ((t.source 0).running, (t.source 0).epoch, (t.source 0).countdown)) = some (true, 0, some 1000) := by decide
theorem test_stop_source :
    after (.stopSource 1 0) (linkOpen.setSource 0 { timerSource with skip := true, epoch := 7 })
      (fun t => ((t.source 0).running, (t.source 0).skip, (t.source 0).epoch)) = some (false, false, 7) := by decide
theorem test_skip_edge_cancel :
    after (.skipEdge 1 0 1) (linkOpen.setSource 0 { timerSource with skip := true }) (fun t => (t.source 0).skip) =
      some false := by decide
/-- Section 4.10's example at 5.5: the insert emits an edge and clears the phase count. -/
theorem test_insert_edge :
    after (.insertEdge 1 1) (linkOpen.setSource 1 { dividedSource with phase := 1, epoch := 1, line := true })
      (fun t => ((t.source 1).phase, (t.source 1).epoch, (t.source 1).line)) = some (0, 2, false) := by decide
theorem test_read_source :
    after (.readSource 1 0) (linkOpen.setSource 0 { externalSource with epoch := 0x01020304, holdover := 3 })
      (fun t => t.link.response.payload) = some [2, 1, 1, 2, 3, 4, 3, 0, 0] := by decide
theorem test_define_group :
    after (.defineGroup 1 topFields) linkOpen
      (fun t => (t.link.response.status, (t.group 31).map (fun x => (x.state, x.record.seqAddr)))) =
      some (.ok, some (.disabled, some 0x3FFFBFC)) := by decide
theorem test_define_group_beyond_memory :
    after (.defineGroup 1 { topFields with base := 0x3FFFC04 }) linkOpen (fun t => (t.link.response.status, t.group 31)) =
      some (.badArgument, none) := by decide
theorem test_delete_group :
    after (.deleteGroup 1 0) ((withGroup0 { Group.defined outRecord with safeImage := some [⟨0, 1⟩] }).setFreeSafe 1023)
      (fun t => (t.group 0, t.freeSafe)) = some (none, 1024) := by decide
/-- Section 7.2's example: 24 words fit beside 1000 and take the last free words. -/
theorem test_enable_group_space :
    after (.enableGroup 1 0)
      (((withGroup0 { Group.defined { inRecord with length := 24 } with state := .disabled }).setGroup 1
        { inLive with record := { inRecord with length := 1000 } }).setFreeSnapshot 48)
      (fun t => ((t.group 0).map Group.state, t.freeSnapshot)) = some (some .live, 0) := by decide
/-- Section 7.2's example: 25 words do not. -/
theorem test_enable_group_no_space :
    after (.enableGroup 1 0)
      (((withGroup0 { Group.defined { inRecord with length := 25 } with state := .disabled }).setGroup 1
        { inLive with record := { inRecord with length := 1000 } }).setFreeSnapshot 48)
      (fun t => (t.link.response.status, t.freeSnapshot)) = some (.noSpace, 48) := by decide
theorem test_disable_group_pending :
    after (.disableGroup 1 0) (withGroup0 { outLive with committing := some .safe, pendingSafe := true })
      (fun t => (t.link.response.status, (t.group 0).map (fun x => (x.state, x.pendingSafe)))) =
      some (.pending, some (.draining, false)) := by decide
theorem test_resume_group :
    after (.resumeGroup 1 0) (withGroup0 { outLive with state := .safe, staleCount := 2, record := { outRecord with latch := true } })
      (fun t => (t.group 0).map (fun x => (x.state, x.staleCount))) = some (some (.live, 0)) := by decide
/-- Section 6.5's example: the loads 3, 0, 3 leave two entries, offset 3 with the second value. -/
theorem test_load_safe :
    after (.loadSafe 1 0 1 [⟨3, 1⟩, ⟨0, 2⟩, ⟨3, 3⟩]) ((withGroup0 (Group.defined outRecord)).setFreeSafe 1019)
      (fun t => ((t.group 0).bind Group.safeImage, t.freeSafe)) = some (some [⟨3, 3⟩, ⟨0, 2⟩], 1017) := by decide
/-- Section 6.5's example: the first flag returns the old entries. -/
theorem test_load_safe_first :
    after (.loadSafe 1 0 1 [⟨7, 1⟩, ⟨6, 2⟩])
      ((withGroup0 { Group.defined outRecord with safeImage := some [⟨0, 0⟩, ⟨1, 0⟩, ⟨2, 0⟩, ⟨3, 0⟩, ⟨4, 0⟩] }).setFreeSafe 1016)
      (fun t => ((t.group 0).bind Group.safeImage, t.freeSafe)) = some (some [⟨7, 1⟩, ⟨6, 2⟩], 1019) := by decide
theorem test_read_group_input :
    after (.readGroup 1 0) (withGroup0 { inLive with front := some ⟨10, []⟩, held := true, back := .pending ⟨11, []⟩, holdCount := 1 })
      (fun t => t.link.response.payload) =
      some ([2, 1] ++ List.replicate 20 0 ++ [0, 0, 0, 10, 0, 1, 1, 1]) := by decide
theorem test_set_event_mask :
    after (.setEventMask 1 0x7180) linkOpen (fun t => (t.events.enabled .syncLost, t.events.enabled .imageLate)) =
      some (true, false) := by decide
/-- Section 10.5's example: the payload of two records after a drop count of 1. -/
theorem test_read_events :
    after (.readEvents 1 25)
      (linkOpen.setEvents ⟨[edgeEvent .imageLate 1 0 300 4, edgeEvent .groupStale 1 0 300 1], 1, 0xFFFF, true⟩)
      (fun t => (t.link.response.payload, t.events.alert)) =
      some ([0, 1, 2, 0xE0, 1, 0, 0, 0, 1, 0x2C, 0, 4, 0xE7, 1, 0, 0, 0, 1, 0x2C, 0, 1], false) := by decide
theorem test_power_on : after .powerOn { resettingState with freeStage := 3 } (fun t => (t.freeStage, t.resetting)) =
    some (4096, none) := by decide
theorem test_reset_assert : after .resetAssert { linkOpen with streak := 3 } (fun t => (t.resetAsserted, t.streak, t.link.receive)) =
    some (true, 0, .closed) := by decide

/-! ## Witnesses: for each statement with hypotheses, states and operands that meet them, clause by clause -/

/-- A state whose RESET input is asserted. -/
def resetHeld : State := { linkOpen with resetAsserted := true }

theorem test_witness_StepRunsFrontCommand :
    linkOpen.pending = [] ∧ resetHeld.resetAsserted = true ∧ resettingState.resetting ≠ none ∧
    (∀ a ∈ linkOpen.host.active, a.wait ≠ .nothing) := by and_intros <;> decide +kernel

theorem test_witness_CommandsStopOnlyOnWhatCannotHappen :
    (Instr.transferStart.wellFormed = true ∧ exec .transferStart State.reset = .next linkOpen) ∧
    exec (.runResponse .okay []) linkOpen = .fault .unexpectedResponse ∧
    exec (.frameDiscarded [2]) linkOpen = .fault .frameNotDiscarded := ⟨⟨rfl, rfl⟩, rfl, rfl⟩

theorem test_witness_ResetInputHoldsThePart :
    resetHeld.resetAsserted = true ∧ (Instr.timerExpiry 3).wellFormed = true ∧ Instr.timerExpiry 3 ≠ .powerOn ∧
    Instr.timerExpiry 3 ≠ .resetAssert := by decide +kernel

theorem test_witness_TransferStartAndNop :
    resetHeld.resetAsserted = true ∧ State.reset.link.receive = .closed ∧ linkOpen.mdoByte true 0 = some 0x03 ∧
    ([true] : List Bool).length < 8 ∧ State.reset.resetAsserted = false ∧ linkOpen.resetAsserted = false ∧ linkOpen.link.receive = .receiving ∧
    resettingState.link.receive = .receiving := by decide +kernel

theorem test_witness_TruncatedFrameIsAnswered :
    LinkReady linkOpen ∧ examineFrame [2] = .incomplete ∧
    examineFrame ([0, 0, 250] ++ List.replicate 250 0) = .incomplete := by decide +kernel

theorem test_witness_FrameExaminationOrder :
    (250 < (251 : Byte).toNat) ∧
    ((250 : Byte).toNat ≤ 250 ∧ (List.replicate 250 (0 : Byte)).length = (250 : Byte).toNat) ∧
    ((1 : Byte) ≠ crc8 [0, 0, 0]) ∧
    ((0 : Byte) = crc8 [0, 0, 0] ∧ commandCode .nop = 0 ∧ (0xE9 : Byte) = crc8 [0x02, 0x03, 0] ∧
      commandCode .readDevice = 0x02) ∧
    (LinkReady linkOpen ∧ examineFrame [2, 3, 251] = .refused .badLength 3) := by decide +kernel

theorem test_witness_FrameExaminationOrder_unknown_code (c : Command) : commandCode c ≠ 0x04 := by cases c <;> decide

theorem test_witness_FrameExaminationOrder_lengths :
    acceptedLength .loadSafe 247 ∧ acceptedLength .loadSafe 2 ∧ ¬ acceptedLength .loadSafe 250 ∧
    ¬ acceptedLength .nop 1 ∧ acceptedLength .nop 0 :=
  ⟨⟨49, by decide, rfl⟩, ⟨0, by decide, rfl⟩, fun ⟨_, _, h⟩ => by omega, Nat.one_ne_zero, rfl⟩

theorem test_witness_FramesAreDiscardedDuringReset :
    (resettingState.resetAsserted = false ∧ resettingState.resetting ≠ none ∧ resettingState.link.receive = .receiving) ∧
    ((Instr.identify 4).wellFormed = true ∧ framePayload (.identify 4) ≠ none) ∧
    (examineFrame [2] = .incomplete) ∧ (examineFrame [2, 3, 251] = .refused .badLength 3) ∧
    (examineFrame [0x02, 0x03, 0x00, 0xE9] = .accepted (.readDevice 3)) := by decide +kernel

theorem test_witness_FramesAreDiscardedDuringReset_not_nop (tag : Byte) :
    Instr.identify 4 ≠ .nop tag ∧ Instr.readDevice 3 ≠ .nop tag := ⟨nofun, nofun⟩

theorem test_witness_FrameOfCommandReadsBack :
    (Instr.loadSafe 0 31 1 (List.replicate 49 ⟨255, 0xFFFFFFFF⟩)).wellFormed = true ∧
    framePayload (.loadSafe 0 31 1 (List.replicate 49 ⟨255, 0xFFFFFFFF⟩)) ≠ none ∧
    framePayload (.defineGroup 0xFF topFields) ≠ none := by decide +kernel

theorem test_witness_DeviceReadsAndEventMask : LinkReady linkOpen := by decide

theorem test_witness_ReadEventsRemovesFromTheHead :
    LinkReady linkOpen ∧ (0 : Byte).toNat = 0 ∧ 25 < (26 : Byte).toNat ∧ 1 ≤ (1 : Byte).toNat ∧
    (1 : Byte).toNat ≤ 25 ∧ 1 ≤ (25 : Byte).toNat ∧ (25 : Byte).toNat ≤ 25 := by decide +kernel

theorem test_witness_RaisedEventIsOfferedToTheQueue :
    ((0xFFFE : BitVec 16).getLsbD (EventKind.imageLate).code.toNat = false) ∧
    ((0x0001 : BitVec 16).getLsbD (EventKind.imageLate).code.toNat = true) ∧
    (List.replicate 63 (sourceEvent .syncLost 0 0 0)).length < 64 ∧
    64 ≤ (List.replicate 64 (sourceEvent .syncLost 0 0 0)).length := by decide +kernel

/-- ES1 not yet defined, ES1 RUNNING with the same kind, ES1 RUNNING with another kind, and each bound of the checks. -/
theorem test_witness_DefineSource :
    LinkReady linkOpen ∧ (1 : SourceNo).val = timerFields.source.toNat ∧ SourceFieldsOk timerFields linkOpen ∧
    (linkOpen.source 1).running = false ∧
    ¬ SourceFieldsOk { timerFields with margin := 5 } linkOpen ∧ ¬ SourceFieldsOk { timerFields with source := 4 } linkOpen ∧
    ¬ SourceFieldsOk { timerFields with unit := 4 } linkOpen ∧ ¬ SourceFieldsOk { timerFields with kind := 3 } linkOpen ∧
    (SourceFieldsOk timerFields (linkOpen.setSource 1 timerSource) ∧
      timerSource.record.map (fun r => r.kind.same (storedSource timerFields).kind) = some true) ∧
    (SourceFieldsOk timerFields (linkOpen.setSource 1 externalSource) ∧
      externalSource.record.map (fun r => r.kind.same (storedSource timerFields).kind) = some false) ∧
    SourceFieldsOk { timerFields with kind := 1, guard := 1, period := 1, syncLine := 3 } linkOpen ∧
    ¬ SourceFieldsOk { timerFields with kind := 1, guard := 1, syncLine := 4 } linkOpen ∧
    SourceFieldsOk { timerFields with kind := 2, parent := 0, divisor := 256 } (linkOpen.setSource 0 timerSource) ∧
    ¬ SourceFieldsOk { timerFields with kind := 2, parent := 0, divisor := 257 } (linkOpen.setSource 0 timerSource) ∧
    ¬ SourceFieldsOk { timerFields with kind := 2, parent := 0, divisor := 1 } linkOpen ∧
    ¬ SourceFieldsOk { timerFields with kind := 2, parent := 1, divisor := 1 } linkOpen := by
  and_intros <;> decide +kernel

/-- The highest source slot UNDEFINED, STOPPED with a record, and RUNNING; and the source number above it. -/
theorem test_witness_SourceCommands :
    LinkReady linkOpen ∧ 3 < (4 : Byte).toNat ∧ (3 : SourceNo).val = (3 : Byte).toNat ∧
    (linkOpen.source 3).record = none ∧ (linkOpen.source 3).running = false ∧
    (((linkOpen.setSource 3 { timerSource with running := false }).source 3).record ≠ none ∧
      ((linkOpen.setSource 3 { timerSource with running := false }).source 3).running = false) ∧
    (((linkOpen.setSource 3 timerSource).source 3).running = true ∧
      ((linkOpen.setSource 3 timerSource).source 3).record ≠ none) ∧
    LinkReady (linkOpen.setSource 3 timerSource) ∧ 1 < (2 : Byte).toNat ∧ (1 : Byte).toNat ≤ 1 := by decide +kernel

theorem test_witness_ReadSourceReports :
    LinkReady (linkOpen.setSource 3 dividedSource) ∧ 3 < (4 : Byte).toNat ∧ (3 : SourceNo).val = (3 : Byte).toNat := by
  decide +kernel

/-- The four expiries, each at its boundary: holdover limit 0 and 1, holdover count one below the limit and at it. -/
theorem test_witness_TimerExpiries :
    ((linkOpen.setSource 0 timerSource).resetAsserted = false ∧ timerSource.running = true ∧ timerSource.skip = false ∧
      timerSource.record = some ⟨.us100, 0, .timer 10⟩) ∧
    ((linkOpen.setSource 0 externalSource).source 0 = externalSource ∧ externalSource.lock = .locked ∧
      externalSource.watch ≠ none ∧ (2 : Byte) ≠ 0 ∧ externalSource.record = some ⟨.us1, 0, .external 100 10 2 0⟩) ∧
    (1 : Byte) < 2 ∧ (2 : Byte) ≤ 2 ∧ (linkOpen.source 0).running = false ∧ (linkOpen.source 0).lock ≠ .locked ∧
    (linkOpen.source 0).lock ≠ .holdover := by decide +kernel

/-- ES0 follows SYNC0 in LOCKED, ES1 follows it LOST, ES2 follows it in HOLDOVER with an open absorb window, ES3 does not. -/
def followers : State :=
  (((linkOpen.setSource 0 externalSource).setSource 1 { externalSource with lock := .lost, watch := none }).setSource 2
    { externalSource with lock := .holdover, watch := none, standIn := some 100, absorbWindow := some 10 }).setSource 3 timerSource

theorem test_witness_SyncEdgeLocksItsFollowers :
    followers.resetAsserted = false ∧
    (∀ n : SourceNo, n < 3 → (followers.source n).running = true ∧
      (followers.source n).record = some ⟨.us1, 0, .external 100 10 2 0⟩) ∧
    (followers.source 0).lock = .locked ∧ (followers.source 1).lock = .lost ∧
    ((followers.source 2).lock = .holdover ∧ (followers.source 2).absorbWindow ≠ none) ∧
    (followers.source 3).record = some ⟨.us100, 0, .timer 10⟩ := by decide +kernel

/-- A void offer; an offer to a child that does not run; a count one below the divisor and one more below, with and without skip. -/
theorem test_witness_ParentEdgeIsCounted :
    takeChildOffer 0 1 [] = none ∧ takeChildOffer 0 1 [⟨0, 3, [], [⟨1, true⟩]⟩] = some (true, []) ∧
    takeChildOffer 0 1 [⟨0, 3, [], [⟨1, false⟩]⟩] = some (false, []) ∧ (linkOpen.source 1).running = false ∧
    dividedSource.running = true ∧ dividedSource.record = some ⟨.us1, 0, .divided 0 3⟩ ∧ dividedSource.skip = false ∧
    3 ≤ dividedSource.phase + 1 ∧ ({ dividedSource with phase := 1 } : Source).phase + 1 < 3 := by decide +kernel

theorem test_witness_DeliveriesAreTakenInOrder :
    takeGroupOffer 0 0 [⟨0, 61, [⟨0, true⟩, ⟨1, false⟩], []⟩] = some (61, true, [⟨0, 61, [⟨1, false⟩], []⟩]) ∧
    takeGroupOffer 0 1 [⟨0, 61, [⟨0, true⟩, ⟨1, false⟩], []⟩] = none ∧ linkOpen.resetAsserted = false := by decide +kernel

/-- What every statement about an edge at a group asks for. -/
abbrev EdgeWaits (x : Group) : Prop :=
  (withEdge x).resetAsserted = false ∧ takeGroupOffer 0 0 (withEdge x).edges = some (61, false, []) ∧
  (withEdge x).group 0 = some x

theorem test_witness_EdgeCommitsOrIsBehind :
    EdgeWaits { outLive with armed := some image1 } ∧
    EdgeWaits { outLive with armed := some image1, committing := some .safe } ∧ outLive.record.kind = .output ∧
    outLive.state = .live := by decide +kernel

/-- Stale counting off; one below the limit after the edge; at the limit, without and with a safe image. -/
theorem test_witness_EdgeFindsNothingToPublish :
    EdgeWaits { outLive with record := { outRecord with staleLimit := 0 } } ∧
    (EdgeWaits outLive ∧ outLive.armed = none ∧ outLive.staleCount + 1 ≠ outLive.record.staleLimit) ∧
    (EdgeWaits { outLive with staleCount := 1 } ∧ (1 : Byte) + 1 = outLive.record.staleLimit ∧ outLive.safeImage = none) ∧
    EdgeWaits { outLive with staleCount := 1, safeImage := some [], filling := some ⟨[], false⟩ } ∧
    EdgeWaits { outLive with staleCount := 1, safeImage := some [⟨0, 1⟩], committing := some .safe } := by
  and_intros <;> decide +kernel

theorem test_witness_EdgeInSafeOrDraining :
    EdgeWaits { outLive with state := .draining, committing := some .safe } ∧ EdgeWaits { inLive with state := .draining } ∧
    EdgeWaits (Group.defined outRecord) ∧ (Group.defined outRecord).state = .disabled ∧
    EdgeWaits { outLive with state := .safe, staleCount := 2 } ∧
    EdgeWaits { outLive with state := .safe, staleCount := 2, armed := some image1, record := { outRecord with latch := true } } ∧
    EdgeWaits { outLive with state := .safe, staleCount := 2, armed := some image1 } ∧ outRecord.latch = false ∧
    EdgeWaits { outLive with state := .safe, staleCount := 2, armed := some image1, committing := some .safe } := by
  and_intros <;> decide +kernel

/-- Not held; held with the count one and two below the limit, with and without a PENDING bank. -/
theorem test_witness_EdgeAtInputGroup :
    (EdgeWaits inLive ∧ inLive.record.kind = .input ∧ inLive.state = .live ∧ inLive.held = false) ∧
    EdgeWaits { inLive with held := true, holdCount := 1, captureInFlight := true } ∧ (1 : Byte) + 1 ≠ inLive.record.holdLimit ∧
    EdgeWaits { inLive with held := true, holdCount := 2, back := .pending ⟨12, []⟩ } ∧ (2 : Byte) + 1 = inLive.record.holdLimit := by
  and_intros <;> decide +kernel

/-- Held with no hold limit, the count saturated: the premise on the group that follows has its solution. -/
theorem test_witness_EdgeAtInputGroup_premise :
    ∃ (y : Group) (q : EventQueue), ∀ c : Byte, c = (if (0xFF : Byte) = 0xFF then 0xFF else (0xFF : Byte) + 1) →
      y = { inLive with holdCount := c } ∧ q = linkOpen.events :=
  ⟨{ inLive with holdCount := 0xFF }, _, by rintro _ rfl; exact ⟨rfl, rfl⟩⟩

/-- A request that waits for the answer of a run of one word. -/
def runWait (d : Dir) : ActiveRequest := ⟨⟨d, 0, [⟨0xF, 0⟩]⟩, 1, [⟨0xF, 0⟩], false, [], .run, [], []⟩

/-- A request that waits for a layered read of its only word. -/
def layeredWait : ActiveRequest := ⟨⟨.read, 0x800, [⟨0x7, 0⟩]⟩, 0, [], false, [], .layered 0x00000011 0x6, [], []⟩

/-- Held off by a reset and by a request inside; one word beyond the limit; the last word below it. -/
theorem test_witness_HostRequestArrives :
    (resettingState.resetAsserted = false ∧ resettingState.resetting ≠ none) ∧
    (runWait .read).wait ≠ .nothing ∧ ({ runWait .read with wait := .nothing, gaps := [1] } : ActiveRequest).taken ∈ [1] ∧
    HostIdle linkOpen ∧ (oneWord .read 0xFFFFFF ⟨0xF, 0⟩).wellFormed = true ∧ (∀ k ∈ [2, 3], 1 < k) ∧
    ((⟨.write, 0xFFFFFF, [⟨0xF, 0⟩, ⟨0, 0⟩]⟩ : PortRequest).wellFormed = true ∧
      16777216 < (0xFFFFFF : WordAddr).toNat + 2) ∧
    ((⟨.read, 0xFFFFFF, [⟨0xF, 0⟩]⟩ : PortRequest).wellFormed = true ∧ (0xFFFFFF : WordAddr).toNat + 1 ≤ 16777216 ∧
      linkOpen.port = none ∧ linkOpen.engine.running = none ∧ linkOpen.engine.queue = [] ∧
      ∀ k, k < 1 → forwarded linkOpen .read (classify linkOpen (0xFFFFFF + BitVec.ofNat 24 k)) = true) := by
  and_intros <;> decide +kernel

/-- An output group that holds the first word in its filling image, lanes 0 and 1. -/
def holding : Group := { outLive with filling := some ⟨[⟨0, 0x2222, 0x3⟩], false⟩ }

/-- A request of two words of one class, the second still to be taken, in each of the states that take a word. -/
def between (d : Dir) (a : WordAddr) (run : List PortWord) : ActiveRequest :=
  ⟨⟨d, a, [⟨0xF, 0⟩, ⟨0xF, 0⟩]⟩, 1, run, false, [], .nothing, [1], []⟩

/-- Each class of the second word; a word that ends the run; the last word taken, with a run, with none, and with a request held
off behind. -/
theorem test_witness_LastAnswerEndsTheRequest_words :
    (HostIdle linkOpen ∧ burst8.wellFormed = true ∧ burst8.addr.toNat + burst8.words.length ≤ 16777216) ∧
    (classify linkOpen (0 + 1) = .pass ∧ forwarded linkOpen .read .pass = true) ∧
    (classify (withGroup0 outLive) (0x7FF + 1) = .outputData 0 0 ∧ (between .write 0x7FF [⟨0xF, 0⟩]).run ≠ [] ∧
      forwarded (withGroup0 outLive) .write (.outputData 0 0) = false) ∧
    (classify (withGroup0 outLive) (0x806 + 1) = .outputSeal 0 7 ∧ (between .write 0x806 []).run = []) ∧
    classify (withGroup0 { outLive with state := .draining }) (0x806 + 1) = .draining 0 7 ∧
    classify (withGroup0 outLive) (0x8FF + 1) = .seqProtected 0 ∧
    classify (withGroup0 inLive) (0x1012 + 1) = .inputStamp 0 19 ∧
    (layeredLanes holding 0 0x3).2 = 0 ∧ (layeredLanes holding 0 0xF).2 ≠ 0 ∧
    (classify (withGroup0 inLive) (0xFFF + 1) = .inputData 0 0 ∧
      ({ inLive with front := some ⟨10, []⟩ } : Group).front = some ⟨10, []⟩) ∧
    ((between .read 0 []).request.words[1]? = some ⟨0xF, 0⟩ ∧ (runWait .read).taken = (runWait .read).request.words.length ∧
      (runWait .read).request.words.length ≤ 16) := by and_intros <;> decide +kernel

theorem test_witness_LastAnswerEndsTheRequest :
    (1 ∉ (runWait .read).gaps ∧ 1 + 1 ∉ (runWait .read).gaps) ∧
    linkOpen.resetAsserted = false ∧ linkOpen.resetting = none ∧
    (linkOpen.setActive (some (runWait .read))).host.waiting = [] ∧
    ((runWait .read).wait = .run ∧ (runWait .read).taken = (runWait .read).request.words.length ∧
      [(7 : Word)].length = (runWait .read).request.words.length) ∧
    (layeredWait.wait = .layered 0x00000011 0x6 ∧ layeredWait.run = [] ∧
      layeredWait.taken + 1 = layeredWait.request.words.length) := by decide +kernel

theorem test_witness_LayeredViewByLane :
    HostIdle (withGroup0 holding) ∧ (withGroup0 holding).group 0 = some holding ∧
    classify (withGroup0 holding) 0x800 = .outputData 0 0 ∧ classify (withGroup0 holding) 0x807 = .outputSeal 0 7 ∧
    classify (withGroup0 { holding with state := .draining }) 0x800 = .draining 0 0 ∧
    (layeredLanes holding 0 0x3).2 = 0 ∧ (layeredLanes holding 0 0x7).2 ≠ 0 ∧ (withGroup0 holding).port = none ∧
    (withGroup0 holding).engine.running = none ∧ (withGroup0 holding).engine.queue = [] := by and_intros <;> decide +kernel

/-- The first and the last word of the range, the sequence word, and the words on either side of the range. -/
theorem test_witness_HostWordClasses :
    RangeLaw (withGroup0 outLive) ∧ (withGroup0 outLive).group 0 = some outLive ∧
    4 * (0x800 : WordAddr).toNat = outRecord.base.toNat + 4 * 0 ∧ 4 * (0x807 : WordAddr).toNat = outRecord.base.toNat + 4 * 7 ∧
    7 < outRecord.length ∧ outRecord.seqAddr = some 0x2400 ∧ 4 * (0x900 : WordAddr).toNat = (0x2400 : BitVec 32).toNat := by
  and_intros <;> decide +kernel

theorem test_witness_HostWordClasses_outside (g : GroupNo) (x : Group) (h : (withGroup0 outLive).group g = some x)
    (a : Nat) (ha : a = 0x7FF ∨ a = 0x808) :
    ¬ InRange x.record.base.toNat x.record.length (4 * a) ∧ ∀ q ∈ x.record.seqAddr, q.toNat ≠ 4 * a := by
  have hx : ∀ g : GroupNo, ∀ y ∈ (withGroup0 outLive).group g, y = outLive := by decide +kernel
  rw [hx g x h]
  refine ⟨fun ⟨k, hk, e⟩ => ?_, fun q hq => ?_⟩
  · have h1 : outLive.record.base.toNat = 0x2000 := rfl
    have h2 : outLive.record.length = 8 := rfl
    omega
  · cases hq
    have h3 : (0x2400 : BitVec 32).toNat = 0x2400 := rfl
    omega

/-- A held offset, a new offset with the last free entry, and a new offset with none. -/
theorem test_witness_HostWriteIsStaged :
    HostIdle (withGroup0 holding) ∧ classify (withGroup0 holding) 0x800 = .outputData 0 0 ∧
    (∃ e ∈ [(⟨0, 0x2222, 0x3⟩ : Entry)], e.offset = 0) ∧ classify (withGroup0 holding) 0x806 = .outputData 0 6 ∧
    (∀ e ∈ [(⟨0, 0x2222, 0x3⟩ : Entry)], e.offset ≠ 6) ∧ ((withGroup0 holding).setFreeStage 1).freeStage = 0 + 1 ∧
    HostIdle ((withGroup0 holding).setFreeStage 0) := by and_intros <;> decide +kernel

theorem test_witness_SealActsByTheTable :
    HostIdle (withGroup0 holding) ∧ classify (withGroup0 holding) 0x807 = .outputSeal 0 7 ∧
    (withGroup0 { holding with armed := some image1 }).group 0 = some { holding with armed := some image1 } ∧
    (withGroup0 { holding with record := { outRecord with policy := .reject }, armed := some image1 }).group 0 =
      some { holding with record := { outRecord with policy := .reject }, armed := some image1 } := by
  and_intros <;> decide +kernel

theorem test_witness_CoalesceMergesByOffset :
    (([⟨3, 1, 0xF⟩, ⟨0, 2, 0xF⟩, ⟨7, 3, 0xF⟩] : Image).map Entry.offset).Nodup ∧
    (([⟨1, 4, 0x3⟩, ⟨7, 5, 0xF⟩] : Image).map Entry.offset).Nodup := by decide

theorem test_witness_WordsServedWithoutMemory :
    HostIdle (withGroup0 inLive) ∧ classify (withGroup0 inLive) 0x1000 = .inputData 0 0 ∧
    classify (withGroup0 inLive) 0x1013 = .inputStamp 0 19 ∧
    (withGroup0 { inLive with front := some ⟨10, []⟩, held := true, back := .pending ⟨11, []⟩ }).group 0 ≠ none ∧
    classify (withGroup0 { outLive with state := .draining }) 0x807 = .draining 0 7 ∧
    classify (withGroup0 outLive) 0x900 = .seqProtected 0 ∧ (1 : Lanes).getLsbD 0 = true ∧ (0xE : Lanes).getLsbD 0 = false := by
  and_intros <;> decide +kernel

/-- A capture with its last words to read and one with none left; a job before its opening write, at its last entry, and past it. -/
theorem test_witness_JobRequestOrder :
    ((newCaptureJob 0 71).phase = .capture ∧ 19 < inLive.record.length ∧ inLive.record.length ≤ 20) ∧
    (commitJob.phase = .plain ∧ outLive.record.seqAddr = some 0x2400 ∧ commitJob.writingIssued = true) ∧
    ({ outLive with committing := some (.commit image1) } : Group).jobImage[0]? = some ⟨5, 0x11111111, 0xF⟩ ∧
    ({ outLive with committing := some (.commit image1) } : Group).jobImage.length ≤ 1 := by and_intros <;> decide +kernel

/-- Both ask, with the streak one below its limit and at it. -/
def bothAsk (n : Nat) : State :=
  { ((withJob { outLive with committing := some (.commit image1) } commitJob .dataWrite).setPort none).setActive
      (some (runWait .read)) with streak := n }

theorem test_witness_ArbiterTable :
    (bothAsk 7).port = none ∧ (bothAsk 7).engineAsk ≠ none ∧ (bothAsk 7).hostAsk ≠ none ∧ (bothAsk 7).streak < 8 ∧
    (bothAsk 8).streak = 8 ∧ linkOpen.engineAsk = none ∧ linkOpen.hostAsk = none ∧
    ((bothAsk 0).setActive none).hostAsk = none ∧ ((bothAsk 0).setRunning none).engineAsk = none ∧
    (((bothAsk 7).setActive (some joinedRun)).port = none ∧ ((bothAsk 7).setActive (some joinedRun)).resetAsserted = false ∧
      ((bothAsk 7).setActive (some joinedRun)).engineAsk ≠ none ∧ ((bothAsk 8).setActive (some joinedRun)).streak = 8 ∧
      joinedRun.wait = .nothing ∧ joinedRun.taken ∈ joinedRun.gaps ∧ joinedRun.taken ∈ joinedRun.joined ∧
      joinedRun.taken = joinedRun.request.words.length ∧ joinedRun.run ≠ []) ∧
    ((runWait .read).taken ∉ (runWait .read).joined) ∧
    (bothAsk 7).nextWait joinedRun = some .run ∧
    (bothAsk 7).nextWait { joinedRun with request := ⟨.write, 0, [⟨0xF, 0⟩, ⟨0xF, 0⟩]⟩ } = none ∧
    (bothAsk 7).nextWait ⟨⟨.read, 0x800, [⟨0xF, 0⟩]⟩, 0, [], false, [], .nothing, [0], [0]⟩ = some (.layered 0 0xF) ∧
    (bothAsk 7).nextWait ⟨⟨.read, 0x805, [⟨0xF, 0⟩]⟩, 0, [], false, [], .nothing, [0], [0]⟩ = none ∧
    (bothAsk 0).resetting = none ∧ (bothAsk 0).engine.running = some commitJob ∧ (bothAsk 0).group commitJob.group ≠ none ∧
    (bothAsk 0).host.active = some (runWait .read) ∧ linkOpen.group 31 = none ∧
    (∀ j ∈ (bothAsk 0).engine.running.toList ++ (bothAsk 0).engine.queue, j.group ≠ 1) := by
  and_intros <;> decide +kernel

theorem test_witness_EngineNeverStalls : (bothAsk 8).engineBusy = false ∧ (bothAsk 8).resetting = none := by decide +kernel

/-- A job and a capture at the head of the queue. -/
theorem test_witness_EngineNeverStalls_head :
    (((withGroup0 outLive).appendJob commitJob).engineBusy = false ∧ ((withGroup0 outLive).appendJob commitJob).engine.running = none ∧
      ((withGroup0 outLive).appendJob commitJob).engine.queue = [commitJob] ∧ commitJob.kind ≠ .capture) ∧
    (((withGroup0 inLive).appendJob (newCaptureJob 0 71)).engine.queue = [newCaptureJob 0 71] ∧
      (newCaptureJob 0 71).kind = .capture ∧ ((withGroup0 inLive).appendJob (newCaptureJob 0 71)).group 0 = some inLive ∧
      inLive.record.kind = .input) := by and_intros <;> decide +kernel

/-- A job whose release pairs are done, with its margin expired and not; and jobs past their last entry in LIVE, SAFE and DRAINING,
of a group with no sequence word. -/
theorem test_witness_EngineNeverStalls_end :
    ∀ st pend ph exp x j, x = { outLive with record := { outRecord with seqAddr := none }, state := st, pendingSafe := pend
                                             committing := some (.commit image1) } →
      j = { commitJob with phase := ph, progress := 1, marginExpired := exp } →
      ((withGroup0 x).setRunning (some j)).engineBusy = false ∧ ((withGroup0 x).setRunning (some j)).resetting = none ∧
      ((withGroup0 x).setRunning (some j)).engine.running = some j ∧
      ((withGroup0 x).setRunning (some j)).group j.group = some x ∧ x.jobImage.length ≤ j.progress ∧
      x.record.seqAddr = none ∧ x.record.kind = .output ∧ j.phase = ph ∧ j.marginExpired = exp := by
  rintro st pend ph exp x j rfl rfl; exact ⟨rfl, rfl, rfl, rfl, Nat.le_refl 1, rfl, rfl, rfl, rfl⟩

theorem test_witness_JobAnswers :
    ∀ p : Purpose, (p = .opening ∨ p = .dataWrite ∨ p = .releaseRead ∨ p = .releaseWrite) →
      ∀ s x, x = { outLive with committing := some (.commit image1) } → s = withJob x commitJob p →
      s.resetAsserted = false ∧ s.resetting = none ∧ s.engine.running = some commitJob ∧ s.group commitJob.group = some x ∧
      s.port = some ⟨p, ⟨.write, 0x805, [⟨0xF, 0x11111111⟩]⟩⟩ ∧
      x.jobImage[commitJob.progress]? = some ⟨5, 0x11111111, 0xF⟩ := by
  rintro p - s x rfl rfl; exact ⟨rfl, rfl, rfl, rfl, rfl, rfl⟩

theorem test_witness_ClosingCompletes :
    ∀ st pend, ∀ x, x = { outLive with state := st, pendingSafe := pend, committing := some (.commit image1) } →
      (withJob x commitJob .closing).resetAsserted = false ∧ (withJob x commitJob .closing).resetting = none ∧
      (withJob x commitJob .closing).engine.running = some commitJob ∧
      (withJob x commitJob .closing).group commitJob.group = some x ∧ x.record.kind = .output ∧ x.state = st ∧
      x.pendingSafe = pend := by
  rintro st pend x rfl; exact ⟨rfl, rfl, rfl, rfl, rfl, rfl, rfl⟩

/-- A group with and without a sequence word. -/
theorem test_witness_PlainCommitWritesItsImage :
    ∀ q, ∀ x, x = { outLive with record := { outRecord with seqAddr := q }, committing := some (.commit image1) } →
      ∀ j, j = { commitJob with writingIssued := false } → ∀ s, s = (withJob x j .closing).setPort none →
      s.resetAsserted = false ∧ s.resetting = none ∧ s.host.active = none ∧ s.port = none ∧ s.engine.queue = [] ∧
      s.engine.running = some j ∧ s.group j.group = some x ∧ j.phase = .plain ∧ j.progress = 0 ∧ j.closingIssued = false ∧
      j.faulted = false ∧ j.faultPosition = none ∧ x.record.seqAddr = q ∧ x.committing = some (.commit image1) ∧
      image1 ≠ [] ∧ [PortStatus.fault].length = image1.length := by
  rintro q x rfl j rfl s rfl
  exact ⟨rfl, rfl, rfl, rfl, rfl, rfl, rfl, rfl, rfl, rfl, rfl, rfl, rfl, rfl, nofun, rfl⟩

/-- A running capture of the input group with its last four words to read. -/
def lastBurst (st : GroupState) : State :=
  ((linkOpen.setGroup 0 { inLive with state := st, captureInFlight := true, back := .filling (List.replicate 16 0) }).setRunning
    (some { newCaptureJob 0 71 with progress := 16 })).setPort (some ⟨.burst, ⟨.read, 0x1010, List.replicate 4 ⟨0xF, 0⟩⟩⟩)

theorem test_witness_CaptureBurst :
    ∀ st, (lastBurst st).resetAsserted = false ∧ (lastBurst st).resetting = none ∧ (lastBurst st).host.active = none ∧
      (lastBurst st).engine.queue = [] ∧ ((lastBurst st).group 0).map Group.back = some (.filling (List.replicate 16 0)) ∧
      (List.replicate 4 (1 : Word)).length = 4 ∧ inLive.record.length ≤ 16 + 4 ∧ inLive.record.kind = .input :=
  fun _ => ⟨rfl, rfl, rfl, rfl, rfl, rfl, by decide, rfl⟩

/-- Each of the three places, and a job whose margin has expired. -/
theorem test_witness_MarginExpiry :
    ∀ b : Bool, ∀ j, j = { commitJob with bbm := true, marginExpired := b } →
      ((⟨[j], none, []⟩ : Engine).jobs.map Job.group).Nodup ∧ ((⟨[], some j, []⟩ : Engine).jobs.map Job.group).Nodup ∧
      ((⟨[], none, [j]⟩ : Engine).jobs.map Job.group).Nodup ∧ j.group = 0 ∧ j.bbm = true ∧ j.marginExpired = b := by
  rintro b j rfl; exact ⟨by simp [Engine.jobs], by simp [Engine.jobs], by simp [Engine.jobs], rfl, rfl, rfl⟩

theorem test_witness_DefineGroup :
    LinkReady linkOpen ∧ RangeLaw linkOpen ∧ 31 < (32 : Byte).toNat ∧ (31 : GroupNo).val = topFields.group.toNat ∧
    (∀ x ∈ linkOpen.group 31, x.state = .disabled) ∧ (∃ x ∈ (withGroup0 outLive).group 0, x.state ≠ .disabled) ∧
    RangeLaw (withGroup0 outLive) ∧ LinkReady (withGroup0 outLive) := by
  and_intros <;> decide +kernel

/-- The last word of the range is the last word of memory, and the sequence word stands directly before the range. -/
theorem test_witness_DefineGroup_fields : GroupFieldsOk 31 topFields linkOpen ∧
    ¬ GroupFieldsOk 31 { topFields with base := 0x3FFFC04 } linkOpen ∧
    ¬ GroupFieldsOk 31 { topFields with length := 257 } linkOpen := by
  refine ⟨⟨by decide, by decide, fun _ => by decide, fun h => absurd h (by decide), fun _ _ => ⟨by decide, by decide, ?_⟩, ?_⟩,
    fun h => absurd h.2.1.2 (by decide), fun h => absurd h.1.2.2.1 (by decide)⟩
  · rintro ⟨k, _, h⟩
    have h1 : topFields.seqAddr.toNat = 0x3FFFBFC := rfl
    have h2 : topFields.base.toNat = 0x3FFFC00 := rfl
    omega
  · have h0 : ∀ h : GroupNo, linkOpen.group h = none := by decide +kernel
    intro h _ y hy
    rw [h0 h] at hy
    exact absurd hy (by simp)

/-- An output group still DISABLED, and a write run of two words, the second its sequence word, that waits behind a burst. -/
def runBeforeEnable : State :=
  ((withGroup0 (Group.defined outRecord)).setActive
    (some ⟨⟨.write, 0x8FF, [⟨0xF, 1⟩, ⟨0xF, 2⟩]⟩, 2, [⟨0xF, 1⟩, ⟨0xF, 2⟩], false, [], .run, [], []⟩)).setPort
      (some ⟨.burst, ⟨.read, 0x1000, [⟨0xF, 0⟩]⟩⟩)

/-- A run of one word, the first of the group's range, that waits behind a burst. -/
def hostOnRange : State :=
  runBeforeEnable.setActive (some ⟨⟨.write, 0x800, [⟨0xF, 1⟩]⟩, 1, [⟨0xF, 1⟩], false, [], .run, [], []⟩)

/-- The same run, still open at a gap, with the port free. -/
def gapOnRange : State :=
  (withGroup0 (Group.defined outRecord)).setActive (some (between .write 0x800 [⟨0xF, 1⟩]))

/-- The cut of a waiting run at its second word, of one at its first word (the word of the range), and of one at a gap; and a run that
touches nothing of the group. -/
theorem test_witness_EnableGroup_cut :
    LinkReady runBeforeEnable ∧ (∀ u ∈ runBeforeEnable.port, u.purpose ≠ .run) ∧
    (runBeforeEnable.host.active.map fun a => (a.request.dir, a.taken, a.run.length, a.wait)) = some (.write, 2, 2, .run) ∧
    (outRecord.kind = .output ∧ (Group.defined outRecord).state = .disabled) ∧
    (outRecord.seqAddr = some 0x2400 ∧ (0x2400 : BitVec 32).toNat = 4 * 0x900) ∧
    (outRecord.touches 0x8FF = false ∧ outRecord.touches 0x900 = true ∧ outRecord.touches 0x800 = true ∧
      outRecord.touches 0x7FF = false) ∧
    (LinkReady hostOnRange ∧ (∀ u ∈ hostOnRange.port, u.purpose ≠ .run)) ∧
    (hostOnRange.host.active.map fun a => (a.taken, a.run.length, (a.runAddr 0).toNat, a.wait)) = some (1, 1, 0x800, .run) ∧
    (LinkReady gapOnRange ∧ gapOnRange.port = none) ∧
    (gapOnRange.host.active.map fun a => (a.taken, a.run.length, (a.runAddr 0).toNat, a.wait)) = some (1, 1, 0x800, .nothing) := by
  and_intros <;> decide +kernel

/-- A space of exactly 1024 words, and of one word more. -/
theorem test_witness_EnableGroup :
    LinkReady (withGroup0 (Group.defined outRecord)) ∧ (0 : GroupNo).val = (0 : Byte).toNat ∧
    (∀ x ∈ linkOpen.group 0, x.state ≠ .disabled) ∧
    (∀ x ∈ (withGroup0 (Group.defined inRecord)).group 0, x.state = .disabled ∧ x.record.kind = .input) ∧
    ((withGroup0 (Group.defined inRecord)).setGroup 1 { inLive with record := { inRecord with length := 1004 } }).enabledInputWords
      + inRecord.length ≤ 1024 ∧
    1024 < ((withGroup0 (Group.defined inRecord)).setGroup 1
      { inLive with record := { inRecord with length := 1005 } }).enabledInputWords + inRecord.length := by
  and_intros <;> decide +kernel

theorem test_witness_DisableGroup :
    LinkReady (withGroup0 outLive) ∧ (0 : GroupNo).val = (0 : Byte).toNat ∧
    (∀ x ∈ (withGroup0 (Group.defined outRecord)).group 0, x.state = .disabled) ∧
    (withGroup0 { outLive with state := .draining, committing := some .safe }).group 0 ≠ none ∧
    (outLive.state = .live ∧ outLive.record.kind = .output ∧ outLive.committing = none) ∧
    (withGroup0 { holding with state := .safe, armed := some image1, committing := some .safe }).group 0 ≠ none ∧
    (inLive.state = .live ∧ inLive.record.kind = .input ∧ inLive.captureInFlight = false ∧ inLive.back.isPending = false) ∧
    ({ inLive with captureInFlight := true, held := true, back := .pending ⟨11, []⟩ } : Group).back = .pending ⟨11, []⟩ := by
  and_intros <;> decide +kernel

theorem test_witness_DeleteAndResume :
    LinkReady (withGroup0 (Group.defined outRecord)) ∧ 31 < (32 : Byte).toNat ∧ (0 : GroupNo).val = (0 : Byte).toNat ∧
    (Group.defined outRecord).state = .disabled ∧ outLive.state ≠ .disabled ∧ outLive.state ≠ .safe ∧
    (withGroup0 { outLive with state := .safe }).group 0 = some { outLive with state := .safe } ∧
    outLive.record.kind = .output ∧ inLive.record.kind = .input := by and_intros <;> decide +kernel

/-- 49 loads, an offset equal to the length, a store that lacks one entry and one that does not. -/
theorem test_witness_LoadSafe :
    LinkReady ((withGroup0 (Group.defined outRecord)).setFreeSafe 1) ∧
    (List.replicate 49 (⟨7, 1⟩ : SafeEntry)).length ≤ 49 ∧ 31 < (32 : Byte).toNat ∧ 1 < (2 : Byte).toNat ∧
    (0 : GroupNo).val = (0 : Byte).toNat ∧ (1 : Byte).toNat ≤ 1 ∧ linkOpen.group 0 = none ∧
    (∃ l ∈ [(⟨8, 1⟩ : SafeEntry)], outRecord.length ≤ l.offset.toNat) ∧
    (∀ l ∈ [(⟨7, 1⟩ : SafeEntry), ⟨6, 1⟩], l.offset.toNat < outRecord.length) ∧
    1 + ([] : List SafeEntry).length < (applyLoads [] [⟨7, 1⟩, ⟨6, 1⟩]).length ∧
    (applyLoads [] [⟨7, 1⟩, ⟨7, 2⟩]).length ≤ 1 + ([] : List SafeEntry).length ∧
    (([⟨3, 3⟩, ⟨0, 2⟩] : List SafeEntry).map SafeEntry.offset).Nodup := by and_intros <;> decide +kernel

theorem test_witness_ReadGroupReports :
    LinkReady (withGroup0 holding) ∧ 31 < (32 : Byte).toNat ∧ (31 : GroupNo).val = (31 : Byte).toNat ∧
    linkOpen.group 31 = none ∧ (withGroup0 inLive).group 0 = some inLive ∧ (withGroup0 holding).group 0 = some holding := by
  decide +kernel

/-- With the port free and with a request in progress. -/
theorem test_witness_ResetDeviceBegins :
    linkOpen.edges = [] ∧ (between .read 0 [⟨0xF, 0⟩]).wait = .nothing ∧ LinkReady (withGroup0 outLive) ∧ (takeAllEdges (withGroup0 outLive)).port = none ∧
    LinkReady (withJob { outLive with committing := some (.commit image1) } commitJob .dataWrite) ∧
    (takeAllEdges (withJob { outLive with committing := some (.commit image1) } commitJob .dataWrite)).port ≠ none := by
  and_intros <;> decide +kernel

/-- With one TORN write due and with none. -/
theorem test_witness_AbandonmentOfWork :
    ∀ s, s = { (withJob { outLive with committing := some (.commit image1) } commitJob .dataWrite).setPort none with
      resetting := some ⟨9, false, []⟩ } →
      s.port = none ∧ s.resetting = some ⟨9, false, []⟩ ∧ s.tornDue = [⟨0x900, 1⟩] ∧ resettingState.port = none ∧
      resettingState.tornDue = [] ∧ resettingState.host.active = none ∧ resettingState.host.waiting = [] := by
  rintro s rfl; and_intros <;> decide +kernel

theorem test_witness_AnswerDuringResetAbandons :
    (∀ p s, s = { withJob { outLive with committing := some (.commit image1) } commitJob p with
      resetting := some ⟨9, false, []⟩ } → s.resetAsserted = false ∧ s.resetting = some ⟨9, false, []⟩ ∧
      s.engine.running = some commitJob ∧ s.port = some ⟨p, ⟨.write, 0x805, [⟨0xF, 0x11111111⟩]⟩⟩) ∧
    (newCaptureJob 0 71).kind = .capture ∧ (lastBurst .live).engine.running = some { newCaptureJob 0 71 with progress := 16 } ∧
    (resettingState.setActive (some (runWait .read))).host.active = some (runWait .read) ∧
    (resettingState.setActive (some layeredWait)).host.active = some layeredWait := by
  refine ⟨?_, rfl, rfl, rfl, rfl⟩
  rintro p s rfl; exact ⟨rfl, rfl, rfl, rfl⟩

theorem test_witness_TornWritesAreDue :
    ((withJob { outLive with committing := some (.commit image1) } commitJob .dataWrite).engine.jobs.map Job.group).Nodup ∧
    (∀ l, ({ linkOpen with resetting := some ⟨9, true, l⟩ } : State).resetAsserted = false) ∧
    (linkOpen.engine.queue = [] ∧ (linkOpen.setActive (some layeredWait)).host.active = some layeredWait ∧
      layeredWait.wait = .layered 0x00000011 0x6 ∧ (runWait .write).wait = .run) ∧
    linkOpen.engine.running = none ∧ ([⟨0x900, 8⟩, ⟨0x901, 3⟩] : List TornWrite) = ⟨0x900, 8⟩ :: ⟨0x901, 3⟩ :: [] :=
  ⟨by decide +kernel, fun _ => rfl, ⟨rfl, rfl, rfl, rfl⟩, rfl, rfl⟩

theorem test_witness_RecordsAndSafeImagesChangeOnlyByCommand :
    after (.disableGroup 1 0) (withGroup0 { outLive with safeImage := some [⟨0, 1⟩] })
      (fun t => ((t.group 0).map Group.record, (t.group 0).bind Group.safeImage)) =
      some (some outRecord, some [⟨0, 1⟩]) := by decide +kernel

theorem test_witness_EpochAndLineMoveTogether :
    after (.timerExpiry 0) (linkOpen.setSource 0 { timerSource with epoch := 0xFFFFFFFF, line := true })
      (fun t => ((t.source 0).epoch, (t.source 0).line)) = some (0, false) := by decide +kernel

/-- A state in which much is under way: a COMMIT job of G0 that faulted has its closing write outstanding while G0 drains, a
capture of G1 waits in the queue, ES0 and ES1 run, an event stands in the queue, and the closing write's answer comes next. -/
def busy : State :=
  { (((((((withJob { outLive with state := .draining, committing := some (.commit image1), seqCount := 4
                                  safeImage := some [⟨0, 1⟩] }
        { commitJob with count := 5, progress := 1, closingIssued := true, faulted := true, faultPosition := some (.offset 5) }
        .closing).setGroup 1
        { inLive with captureInFlight := true, held := true, back := .pending ⟨12, List.replicate 20 0⟩ }).appendJob
        (newCaptureJob 1 13)).setFreeStage 4095).setFreeSafe 1023).setFreeSnapshot 2008).setSource 0 timerSource).setSource 1
        dividedSource with
    events := ⟨[sourceEvent .syncLost 0 0 0], 0, 0xFFFF, true⟩
    streak := 8
    pending := [.closingWriteResponse .fault] }

/-- The step from the busy state answers a next state. -/
theorem test_witness_busy_steps :
    (match step busy with
      | .next t => some ((t.group 0).map Group.state, t.port.map PortUse.purpose, t.freeStage)
      | .fault _ => none
      | .refused _ => none) = some (some .disabled, some .burst, 4096) := by decide +kernel

theorem test_witness_StagePoolIsKept : PoolInv busy := by and_intros <;> decide +kernel

theorem test_witness_GroupLawsAreKept : StaleLaw busy ∧ HoldLaw busy := by and_intros <;> decide +kernel

theorem test_witness_GroupLawsAreKept_images : ImageLaw busy := by
  have h : ∀ g : GroupNo, ∀ x ∈ busy.group g, x.filling = none ∧ x.armed = none ∧
      (x.committing = none ∨ x.committing = some (.commit image1) ∧ x.record.length = 8) ∧
      (∀ l ∈ x.safeImage, l = [⟨0, 1⟩] ∧ x.record.length = 8) := by decide +kernel
  intro g x hx
  obtain ⟨h1, h2, h3, h4⟩ := h g x hx
  refine ⟨by simp [h1], by simp [h2], ?_, ?_⟩
  · rintro c hc
    rcases h3 with h3 | ⟨h3, hl⟩
    · simp [h3] at hc
    · obtain rfl : c = .commit image1 := by simpa [h3] using hc.symm
      rw [hl]; decide
  · intro l hl
    obtain ⟨rfl, hn⟩ := h4 l hl
    rw [hn]; decide

theorem test_witness_StoresQueueAndLinkAreKept :
    SafeStoreLaw busy ∧ SnapshotLaw busy ∧ EventLaw busy ∧ ResponseLaw busy ∧ StreakLaw busy := by
  and_intros <;> decide +kernel

theorem test_witness_RangesAreKept : RangeLaw busy := by and_intros <;> decide +kernel

theorem test_witness_EngineAndBanksAreKept_engine : EngineLaw busy := by
  intro _
  refine ⟨by decide +kernel, ?_, by decide +kernel, ?_⟩
  · intro j hj
    have h : j = { commitJob with count := 5, progress := 1, closingIssued := true, faulted := true
                                  faultPosition := some (.offset 5) } ∨ j = newCaptureJob 1 13 := by
      revert j; decide +kernel
    rcases h with rfl | rfl
    · exact ⟨by decide, _, rfl, by decide, rfl, ⟨_, rfl, by decide⟩, by decide⟩
    · exact ⟨by decide, _, rfl, by decide, rfl, rfl⟩
  · intro u hu
    cases hu
    exact ⟨_, rfl, by decide⟩

theorem test_witness_EngineAndBanksAreKept_banks : BankLaw busy := by
  refine ⟨?_, by decide +kernel, fun j hj hk => ?_, fun u hu hp => ?_⟩
  rotate_left
  · cases hj; cases hk
  · cases hu; cases hp
  have h : ∀ g : GroupNo, ∀ x ∈ busy.group g, x.record.kind = .input → x.front = none ∧
      x.back = .pending ⟨12, List.replicate 20 0⟩ ∧ x.record.length = 20 := by decide +kernel
  intro g x hx hk
  obtain ⟨h1, h2, h3⟩ := h g x hx hk
  refine ⟨by simp [h1], ?_⟩
  rw [h2, h3]; rfl

theorem test_witness_SourceLawsAreKept_sources : SourceLaw busy := by decide +kernel

theorem test_witness_SourceLawsAreKept_timers : TimerLaw busy ∧ ParentLaw busy := by
  have h : ∀ n : SourceNo, busy.source n = timerSource ∨ busy.source n = dividedSource ∧ n = 1 ∨
      busy.source n = Source.undefined := by decide +kernel
  constructor <;> intro n
  · intro hr r hm
    rcases h n with h | ⟨h, -⟩ | h <;> rw [h] at hm ⊢ <;> cases hm <;> simp <;> decide
  · intro r hm
    rcases h n with h | ⟨h, hn⟩ | h <;> rw [h] at hm <;> cases hm <;> simp
    subst hn; decide

/-- A host request that waits for the answer of its run, which comes next, with another held off behind it. -/
def hostBusy : State :=
  { ((linkOpen.setHost ⟨some (runWait .read), [oneWord .write 0 ⟨0xF, 1⟩], []⟩).setPort
      (some ⟨.run, ⟨.read, 0, [⟨0xF, 0⟩]⟩⟩)) with pending := [.runResponse .okay [7]] }

theorem test_witness_HostPathLawIsKept : HostLaw hostBusy := by
  refine ⟨by decide +kernel, ?_, by decide +kernel, ?_⟩
  · intro a ha; cases ha; exact ⟨by decide, by decide, by decide, fun _ => rfl, nofun, nofun⟩
  · intro u hu; cases hu; exact ⟨fun _ => ⟨_, rfl, by decide⟩, nofun⟩

theorem test_witness_HostPathLawIsKept_steps :
    (match step hostBusy with
      | .next t => some (t.host.responses, t.port)
      | .fault _ => none
      | .refused _ => none) = some ([⟨.okay, [7]⟩], some ⟨.run, ⟨.write, 0, [⟨0xF, 1⟩]⟩⟩) := by decide +kernel

/-- A request that stands between two words with its run open, and the step of an empty queue there. -/
def hostAtGap : State := linkOpen.setActive (some (between .write 0 [⟨0xF, 0⟩]))

theorem test_witness_HostPathLawIsKept_gap : HostLaw hostAtGap := by
  refine ⟨by decide +kernel, ?_, by decide +kernel, nofun⟩
  intro a ha; cases ha; exact ⟨by decide, by decide, by decide, nofun, fun _ => rfl, .inr (by decide)⟩

theorem test_witness_HostPathLawIsKept_gap_steps :
    (match step hostAtGap with
      | .next t => t.port
      | .fault _ => none
      | .refused _ => none) = some ⟨.run, ⟨.write, 0, [⟨0xF, 0⟩, ⟨0xF, 0⟩]⟩⟩ := by decide +kernel

/-- The same request beside a LIVE output group, to which its run writes nothing. -/
def gapBesideGroup : State := (withGroup0 outLive).setActive (some (between .write 0 [⟨0xF, 0⟩]))

theorem test_witness_HostPathLawIsKept_run : HostLaw gapBesideGroup ∧ RangeLaw gapBesideGroup ∧ RunLaw gapBesideGroup := by
  have h : ∀ g : GroupNo, gapBesideGroup.group g = none ∨ g = 0 ∧ gapBesideGroup.group g = some outLive := by decide +kernel
  refine ⟨⟨by decide +kernel, ?_, by decide +kernel, nofun⟩, ⟨?_, ?_⟩, ?_⟩
  · intro a ha; cases ha; exact ⟨by decide, by decide, by decide, nofun, fun _ => rfl, .inr (by decide)⟩
  · intro g x hx
    rcases h g with h | ⟨-, h⟩ <;> rw [h] at hx <;> cases hx
    decide
  · intro g k hgk x hx y hy
    rcases h g with h1 | ⟨h0, h1⟩ <;> rw [h1] at hx <;> cases hx
    rcases h k with h2 | ⟨h3, h2⟩ <;> rw [h2] at hy <;> cases hy
    exact absurd (h0.trans h3.symm) hgk
  · intro a ha _ _ k hk g x hx
    rcases h g with h | ⟨-, h⟩ <;> rw [h] at hx <;> cases hx
    cases ha
    intro _ _
    have hk : k = 0 := by simpa [between] using hk
    subst hk; decide

theorem test_witness_HostPathLawIsKept_run_steps :
    (match step gapBesideGroup with
      | .next t => (t.port, (t.group 0).map Group.state)
      | .fault _ => (none, none)
      | .refused _ => (none, none)) = (some ⟨.run, ⟨.write, 0, [⟨0xF, 0⟩, ⟨0xF, 0⟩]⟩⟩, some .live) := by decide +kernel

end Sys2Proof.Tests
end

section
/-! SUPPORT. What a seal does in each row of the table of R16, as an equation; and what a host request of one word does when the
word is not forwarded (R49, R55). -/

namespace Sys2Proof.Machine

open Sys2Proof.Safety

/-! ### The rows of a seal -/

/-- The saturation of a counter in terms of its limit (R30). -/
theorem satSucc16_eq (c : BitVec 16) : satSucc16 c = if c = 0xFFFF then 0xFFFF else c + 1 := by
  unfold satSucc16
  split
  · next h => exact h
  · rfl

theorem sealImage_of_undefined {g : GroupNo} {s : State} (hx : s.group g = none) : sealImage g s = s := by
  simp [sealImage, hx]

theorem sealImage_of_unfilled {g : GroupNo} {x : Group} {s : State} (hx : s.group g = some x) (hf : x.filling = none) :
    sealImage g s = s := by
  simp [sealImage, hx, hf]

theorem sealImage_of_damaged {g : GroupNo} {x : Group} {f : Filling} {s : State} (hx : s.group g = some x)
    (hf : x.filling = some f) (hd : f.damaged = true) : sealImage g s = discardDamaged g x f s := by
  simp [sealImage, hx, hf, hd]

theorem sealImage_of_unarmed {g : GroupNo} {x : Group} {f : Filling} {s : State} (hx : s.group g = some x)
    (hf : x.filling = some f) (hd : f.damaged = false) (ha : x.armed = none) :
    sealImage g s = s.setGroup g { x with filling := none, armed := some f.entries } := by
  simp [sealImage, hx, hf, hd, ha]

theorem sealImage_of_reject {g : GroupNo} {x : Group} {f : Filling} {img : Image} {s : State} (hx : s.group g = some x)
    (hf : x.filling = some f) (hd : f.damaged = false) (ha : x.armed = some img) (hp : x.record.policy = .reject) :
    sealImage g s = rejectSeal g x f s := by
  simp [sealImage, hx, hf, hd, ha, hp]

theorem sealImage_of_coalesce {g : GroupNo} {x : Group} {f : Filling} {img : Image} {s : State} (hx : s.group g = some x)
    (hf : x.filling = some f) (hd : f.damaged = false) (ha : x.armed = some img) (hp : x.record.policy = .coalesce) :
    sealImage g s = coalesceSeal g x f img s := by
  simp [sealImage, hx, hf, hd, ha, hp]

/-! ### Staging and sealing take no notice of the host path -/

theorem stageWord_setHost (g : GroupNo) (off : Byte) (w : PortWord) (h : HostPath) (s : State) :
    stageWord g off w (s.setHost h) = ((stageWord g off w s).1, (stageWord g off w s).2.setHost h) := by
  have hrefuse : ∀ x f, refuseForPool g x f off (s.setHost h) = (refuseForPool g x f off s).setHost h := by
    intro x f
    unfold refuseForPool
    simp only
    split <;> rfl
  unfold stageWord
  rw [State.group_setHost, State.setHost_freeStage]
  cases s.group g with
  | none => rfl
  | some x =>
    simp only [hrefuse]
    split
    · rfl
    · split
      · rfl
      · split <;> rfl

theorem sealImage_setHost (g : GroupNo) (h : HostPath) (s : State) : sealImage g (s.setHost h) = (sealImage g s).setHost h := by
  have hg : (s.setHost h).group g = s.group g := State.group_setHost s h g
  rcases hx : s.group g with - | x
  · rw [sealImage_of_undefined hx, sealImage_of_undefined (hg.trans hx)]
  have hx' := hg.trans hx
  rcases hf : x.filling with - | f
  · rw [sealImage_of_unfilled hx hf, sealImage_of_unfilled hx' hf]
  cases hd : f.damaged with
  | true => rw [sealImage_of_damaged hx hf hd, sealImage_of_damaged hx' hf hd]; rfl
  | false =>
    rcases ha : x.armed with - | img
    · rw [sealImage_of_unarmed hx hf hd ha, sealImage_of_unarmed hx' hf hd ha]; rfl
    · cases hp : x.record.policy with
      | coalesce => rw [sealImage_of_coalesce hx hf hd ha hp, sealImage_of_coalesce hx' hf hd ha hp]; rfl
      | reject => rw [sealImage_of_reject hx hf hd ha hp, sealImage_of_reject hx' hf hd ha hp]; rfl

theorem stageAndSeal_setHost (g : GroupNo) (off : Byte) (w : PortWord) (h : HostPath) (s : State) :
    stageAndSeal g off w (s.setHost h) = ((stageAndSeal g off w s).1, (stageAndSeal g off w s).2.setHost h) := by
  simp only [stageAndSeal, stageWord_setHost, sealImage_setHost]

theorem stageAndSeal_host (g : GroupNo) (off : Byte) (w : PortWord) (s : State) :
    (stageAndSeal g off w s).2.host = s.host := by
  have h : stageAndSeal g off w s = ((stageAndSeal g off w s).1, (stageAndSeal g off w s).2.setHost s.host) :=
    stageAndSeal_setHost g off w s.host s
  exact congrArg (fun p => p.2.host) h

/-! ### A request of one word -/

/-- The response takes the place of whatever request was inside (R49). -/
theorem respondHost_setActive (r : HostResponse) (b : Option ActiveRequest) (s : State) :
    respondHost r (s.setActive b) = respondHost r s := rfl

/-- The only word of a request, not forwarded, takes effect, and the request is answered (R55, R56). -/
theorem takeWords_oneWord {s t : State} {d : Dir} {a : WordAddr} {w : PortWord} {refused : Bool} {v : Option Word} (n : Nat)
    (hs : s.host.active = some (.accepted (oneWord d a w))) (hf : forwarded s d (classify s a) = false)
    (ht : takeWord (.accepted (oneWord d a w)) w (classify s a) s =
      t.setActive (some ((ActiveRequest.accepted (oneWord d a w)).tookWord refused v))) :
    takeWords (n + 2) s = respondHost { status := if refused then .fault else .okay, data := v.toList } t := by
  have haddr : (ActiveRequest.accepted (oneWord d a w)).nextAddr = a := BitVec.add_zero a
  have hword : takeWords (n + 2) s = takeWords (n + 1) (takeWord (.accepted (oneWord d a w)) w (classify s a) s) := by
    rw [takeWords, hs]
    simp only [haddr]
    simp [ActiveRequest.accepted, hf]
  rw [hword, ht, takeWords]
  simp [ActiveRequest.accepted, ActiveRequest.tookWord, respondHost_setActive]

/-- With nothing inside it the host path takes no word. -/
theorem takeWords_of_noneActive {s : State} (n : Nat) (ha : s.host.active = none) : takeWords n s = s := by
  cases n with
  | zero => rfl
  | succ n => rw [takeWords, ha]

/-- With nothing inside it the host path accepts the oldest request held off, and goes on (R49). -/
theorem pumpHost_accepts {s : State} {r : HostRequest} {rest : List HostRequest} (n : Nat) (ha : s.host.active = none)
    (hw : s.host.waiting = r :: rest) :
    pumpHost (n + 1) s = pumpHost n (acceptRequest r (s.setHost { s.host with waiting := rest })) := by
  rw [pumpHost, takeWords_of_noneActive _ ha]
  simp only [ha, hw]

/-- With no request held off, the host path goes on by taking the words of its request. -/
theorem pumpHost_of_noneWaiting {s : State} (n : Nat) (h : (takeWords (Config.burstWords + 2) s).host.waiting = []) :
    pumpHost (n + 1) s = takeWords (Config.burstWords + 2) s := by
  rw [pumpHost]
  simp only
  split
  · next hw => rw [h] at hw; cases hw
  · rfl
  · rfl

/-- A request that arrives at an idle host path is accepted, and the host path goes on with it (R49). -/
theorem runHost_accepts {s : State} (r : HostRequest) (hi : HostIdle s) :
    runHost (s.setHost { s.host with waiting := s.host.waiting ++ [r] }) = pumpHost 1 (acceptRequest r s) := by
  obtain ⟨-, hres, hact, hwait⟩ := hi
  have hhost : ({ s.host with waiting := [] } : HostPath) = s.host := by rw [← hwait]
  unfold runHost
  simp only [State.setHost_resetting, State.setHost_host, hres, hwait, Option.isSome_none, Bool.false_eq_true, ↓reduceIte,
    List.nil_append, List.length_singleton]
  refine (pumpHost_accepts (s := s.setHost { s.host with waiting := [r] }) 1 hact rfl).trans ?_
  exact congrArg (fun h => pumpHost 1 (acceptRequest r (s.setHost h))) hhost

/-- No address is so high that a request of one word would reach beyond the 64 MB limit (R50). -/
theorem acceptRequest_oneWord (d : Dir) (a : WordAddr) (w : PortWord) (s : State) :
    acceptRequest (oneWord d a w) s = s.setActive (some (.accepted (oneWord d a w))) := by
  have ha : ¬ Config.addressWords < a.toNat + 1 := by
    have := a.isLt
    simp only [Config.addressWords]
    omega
  exact if_neg ha

theorem exec_oneWord {s : State} {d : Dir} {a : WordAddr} {w : PortWord} (hi : HostIdle s)
    (hwf : (oneWord d a w).wellFormed = true) :
    exec (.hostRequest (oneWord d a w)) s = .next (settle (pumpHost 1 (s.setActive (some (.accepted (oneWord d a w)))))) := by
  have hexec : exec (.hostRequest (oneWord d a w)) s = execHostRequest (oneWord d a w) s := rfl
  rw [hexec, execHostRequest, if_pos hwf, unlessReset_of_false hi.1, runHost_accepts _ hi, acceptRequest_oneWord]

/-- A request of one word that is not forwarded, on an idle host path: the word takes effect and the request is answered in the
same step (R49, R55, R56). -/
theorem exec_oneWord_of_taken {s t : State} {d : Dir} {a : WordAddr} {w : PortWord} {refused : Bool} {v : Option Word}
    (hi : HostIdle s) (hwf : (oneWord d a w).wellFormed = true) (hf : forwarded s d (classify s a) = false)
    (hw : t.host.waiting = [])
    (ht : takeWord (.accepted (oneWord d a w)) w (classify s a) (s.setActive (some (.accepted (oneWord d a w)))) =
      t.setActive (some ((ActiveRequest.accepted (oneWord d a w)).tookWord refused v))) :
    exec (.hostRequest (oneWord d a w)) s = .next (settle (hostAnswered (if refused then .fault else .okay) v.toList t)) := by
  have htake : takeWords (Config.burstWords + 2) (s.setActive (some (.accepted (oneWord d a w)))) =
      respondHost { status := if refused then .fault else .okay, data := v.toList } t :=
    takeWords_oneWord _ rfl hf ht
  rw [exec_oneWord hi hwf, pumpHost_of_noneWaiting 0 (by rw [htake]; exact hw), htake]
  rfl

/-! ### The seal word -/

/-- A write to a seal word stages the word, seals the filling image and is answered, in one step (R15). -/
theorem exec_write_outputSeal {s : State} {a : WordAddr} {g : GroupNo} {off : Byte} (w : PortWord) (hi : HostIdle s)
    (hc : classify s a = .outputSeal g off) :
    exec (.hostRequest (oneWord .write a w)) s =
      .next (settle (hostAnswered (if (stageAndSeal g off w s).1 then .fault else .okay) [] (stageAndSeal g off w s).2)) := by
  have hf : forwarded s .write (classify s a) = false := by rw [hc]; rfl
  have hhost := stageAndSeal_host g off w s
  obtain ⟨-, -, -, hwait⟩ := id hi
  refine exec_oneWord_of_taken (v := none) hi rfl hf (by rw [hhost, hwait]) ?_
  rw [hc]
  simp only [takeWord, ActiveRequest.accepted, State.setActive, stageAndSeal_setHost, hhost]
  rfl

end Sys2Proof.Machine
end

section
/-! PROOFS. The obligation about seals. -/

namespace Sys2Proof.Machine

/-- Settles O30: the write of the seal word is one step of the host path, and each row of the table is the equation of that row
with the counter's saturation written out. -/
theorem sealActsByTheTable : Obligations.SealActsByTheTable := by
  refine ⟨fun s a w g off hi hc => exec_write_outputSeal w hi hc, fun g x s hx => ⟨sealImage_of_unfilled hx, fun f hf => ?_⟩⟩
  refine ⟨fun hd => ?damaged, fun hd ha => sealImage_of_unarmed hx hf hd ha, fun img hd ha hp => ?reject,
    fun img m hd ha hp hm => ?coalesce⟩
  case damaged => rw [sealImage_of_damaged hx hf hd, ← satSucc16_eq]; rfl
  case reject => rw [sealImage_of_reject hx hf hd ha hp, ← satSucc16_eq]; rfl
  case coalesce => rw [sealImage_of_coalesce hx hf hd ha hp, hm, ← satSucc16_eq]; rfl

end Sys2Proof.Machine
end

section
/-! PROOFS. The obligation about the event queue (R165 to R167, R171). -/

namespace Sys2Proof.Machine

/-- Settles O12, by the three outcomes of a raise: the kind's enable and the queue fill that go with each outcome meet the
premises of its own clause and of no other. -/
theorem raisedEventIsOfferedToTheQueue : Obligations.RaisedEventIsOfferedToTheQueue := by
  intro q e
  change (q.enabled e.kind = false → _) ∧ (q.enabled e.kind = true → _) ∧ (q.enabled e.kind = true → _)
  rw [← satSucc16_eq]
  rcases q.raise_cases e with ⟨hmask, heq⟩ | ⟨hmask, hroom, heq⟩ | ⟨hmask, hfull, heq⟩
  case inl => exact ⟨fun _ => heq, fun hon => absurd hon (by simp [hmask]), fun hon => absurd hon (by simp [hmask])⟩
  case inr.inl =>
    exact ⟨fun hoff => absurd hmask (by simp [hoff]), fun _ _ => heq, fun _ hfull => absurd hroom (Nat.not_lt_of_le hfull)⟩
  case inr.inr =>
    exact ⟨fun hoff => absurd hmask (by simp [hoff]), fun _ hroom => absurd hroom (Nat.not_lt_of_le hfull), fun _ _ => heq⟩

end Sys2Proof.Machine
end

section
/-! SUPPORT. What the link makes of the bytes of a frame (R176 to R179, R201): the code table, the payloads each command
accepts and the command they make, and the examination of a frame row by row. -/

namespace Sys2Proof

open Sys2Proof.Safety

/-! ### Multi-byte fields -/

@[simp] theorem bytes16_be16 (hi lo : Byte) : bytes16 (be16 hi lo) = [hi, lo] := by
  rw [bytes16, be16, BitVec.extractLsb'_append_eq_left, BitVec.extractLsb'_append_eq_right]

@[simp] theorem bytes32_be32 (b3 b2 b1 b0 : Byte) : bytes32 (be32 b3 b2 b1 b0) = [b3, b2, b1, b0] := by
  have h3 : (be32 b3 b2 b1 b0).extractLsb' 24 8 = b3 := by
    rw [be32, BitVec.extractLsb'_append_eq_of_le (by decide), BitVec.extractLsb'_append_eq_of_le (by decide),
      BitVec.extractLsb'_append_eq_left]
  have h2 : (be32 b3 b2 b1 b0).extractLsb' 16 8 = b2 := by
    rw [be32, BitVec.extractLsb'_append_eq_of_le (by decide), BitVec.extractLsb'_append_eq_of_le (by decide),
      BitVec.extractLsb'_append_eq_right]
  have h1 : (be32 b3 b2 b1 b0).extractLsb' 8 8 = b1 := by
    rw [be32, BitVec.extractLsb'_append_eq_of_le (by decide), BitVec.extractLsb'_append_eq_right]
  have h0 : (be32 b3 b2 b1 b0).extractLsb' 0 8 = b0 := BitVec.extractLsb'_append_eq_right
  rw [bytes32, h3, h2, h1, h0]

/-! ### The code table -/

theorem commandOfCode_commandCode (c : Command) : commandOfCode (commandCode c) = some c := by
  cases c <;> decide

theorem commandOfCode_of_unknown {code : Byte} (h : ∀ c, commandCode c ≠ code) : commandOfCode code = none := by
  simp [commandOfCode, h]

/-! ### The loads of a LOAD_SAFE payload -/

/-- Decoded loads were written from exactly these bytes (R194). -/
theorem flatMap_of_decodeLoads {bytes : List Byte} {loads : List SafeEntry} (h : decodeLoads bytes = some loads) :
    loads.flatMap (fun l => l.offset :: bytes32 l.data) = bytes := by
  induction bytes using decodeLoads.induct generalizing loads with
  | case1 =>
    cases h
    rfl
  | case2 o b3 b2 b1 b0 rest ih =>
    rw [decodeLoads, Option.map_eq_some_iff] at h
    obtain ⟨tail, htail, rfl⟩ := h
    simp [ih htail]
  | case3 bytes hnil hcons =>
    rw [decodeLoads] at h
    · cases h
    · exact hnil
    · exact hcons

/-- A sequence of five-byte groups decodes to one load for each (R194). -/
theorem decodeLoads_of_length {k : Nat} {bytes : List Byte} (h : bytes.length = 5 * k) :
    ∃ loads, decodeLoads bytes = some loads := by
  induction k generalizing bytes with
  | zero => exact ⟨[], by rw [List.length_eq_zero_iff.mp h]; rfl⟩
  | succ k ih =>
    match bytes, h with
    | o :: b3 :: b2 :: b1 :: b0 :: rest, h =>
      obtain ⟨loads, hloads⟩ := ih (bytes := rest) (by simp only [List.length_cons] at h; omega)
      exact ⟨_, by rw [decodeLoads, hloads]; rfl⟩

/-! ### The payload of a command -/

/-- A payload that makes a command is the payload the command's own frame carries (R201). -/
theorem framePayload_of_decodePayload {tag : Byte} {c : Command} {payload : List Byte} {i : Instr}
    (h : decodePayload tag c payload = some i) : framePayload i = some (c, tag, payload) := by
  unfold decodePayload at h
  -- Only the loads of LOAD_SAFE, the sixteenth pattern, are decoded in turn; every other payload is listed byte by byte.
  split at h
  case h_16 g f rest =>
    obtain ⟨loads, hloads, rfl⟩ := Option.map_eq_some_iff.mp h
    simp [framePayload, flatMap_of_decodeLoads hloads]
  all_goals
    cases h <;> simp [framePayload]

/-- Each load takes five bytes (R194). -/
theorem length_flatMap_loads (loads : List SafeEntry) :
    (loads.flatMap (fun l => l.offset :: bytes32 l.data)).length = 5 * loads.length := by
  induction loads with
  | nil => rfl
  | cons l loads ih =>
    simp only [List.flatMap_cons, List.length_append, List.length_cons, List.length_nil, bytes32] at ih ⊢
    omega

/-- The payload of a command's frame has a length the command accepts, as long as it fits a frame (section 9.3's table). -/
theorem acceptedLength_of_framePayload {i : Instr} {c : Command} {tag : Byte} {payload : List Byte}
    (h : framePayload i = some (c, tag, payload)) (hfit : payload.length ≤ Config.maxPayload) :
    acceptedLength c payload.length := by
  cases i
  case loadSafe _ g f loads =>
    cases h
    simp only [List.length_cons, length_flatMap_loads, Config.maxPayload] at hfit ⊢
    exact ⟨loads.length, by omega, by omega⟩
  all_goals
    cases h <;> rfl

/-- A payload of an accepted length makes a command (section 9.3's table). -/
theorem decodePayload_of_acceptedLength (tag : Byte) {c : Command} {payload : List Byte}
    (h : acceptedLength c payload.length) : ∃ i, decodePayload tag c payload = some i := by
  cases c
  case loadSafe =>
    obtain ⟨k, -, hlen⟩ := h
    match payload, hlen with
    | [], hlen | [_], hlen => simp only [List.length_cons, List.length_nil] at hlen; omega
    | g :: f :: rest, hlen =>
      obtain ⟨loads, hloads⟩ := decodeLoads_of_length (bytes := rest) (k := k) (by simp only [List.length_cons] at hlen; omega)
      exact ⟨_, by rw [decodePayload, hloads]; rfl⟩
  case nop | identify | readDevice | resetDevice =>
    match payload, h with
    | [], _ => exact ⟨_, rfl⟩
  case startSource | stopSource | insertEdge | readSource | deleteGroup | enableGroup | disableGroup | resumeGroup
      | readGroup | readEvents =>
    match payload, h with
    | [_], _ => exact ⟨_, rfl⟩
  case skipEdge | setEventMask =>
    match payload, h with
    | [_, _], _ => exact ⟨_, rfl⟩
  case defineSource =>
    match payload, h with
    | [_, _, _, _, _, _, _, _, _, _, _, _, _, _], _ => exact ⟨_, rfl⟩
  case defineGroup =>
    match payload, h with
    | [_, _, _, _, _, _, _, _, _, _, _, _, _, _, _, _, _, _, _, _, _, _], _ => exact ⟨_, rfl⟩

/-- A payload of a length the command does not accept makes no command (section 9.3's table). -/
theorem decodePayload_of_not_acceptedLength (tag : Byte) {c : Command} {payload : List Byte}
    (hfit : payload.length ≤ Config.maxPayload) (h : ¬ acceptedLength c payload.length) :
    decodePayload tag c payload = none := by
  rcases hd : decodePayload tag c payload with - | i
  · rfl
  · exact absurd (acceptedLength_of_framePayload (framePayload_of_decodePayload hd) hfit) h

/-! ### The examination of a frame, row by row (R179) -/

theorem examineFrame_of_longLength (code tag : Byte) {length : Byte} (rest : List Byte)
    (h : Config.maxPayload < length.toNat) : examineFrame (code :: tag :: length :: rest) = .refused .badLength tag := by
  rw [examineFrame, if_pos h]

/-- A frame is complete with its check byte, and what follows is not looked at (R176). -/
theorem examineFrame_of_complete (code tag check : Byte) {length : Byte} {payload : List Byte} (after : List Byte)
    (hle : length.toNat ≤ Config.maxPayload) (hlen : payload.length = length.toNat) :
    examineFrame (code :: tag :: length :: payload ++ check :: after) = examineWhole code tag length payload check := by
  simp only [List.cons_append]
  rw [examineFrame, if_neg (Nat.not_lt_of_le hle), ← hlen, List.drop_left, List.take_left]

theorem examineWhole_of_badCheck {code tag length check : Byte} {payload : List Byte}
    (h : check ≠ crc8 (code :: tag :: length :: payload)) :
    examineWhole code tag length payload check = .refused .badCheck tag := by
  rw [examineWhole, if_neg h]

theorem examineWhole_of_unknownCode {code tag length check : Byte} {payload : List Byte}
    (h : check = crc8 (code :: tag :: length :: payload)) (hcode : ∀ c, commandCode c ≠ code) :
    examineWhole code tag length payload check = .refused .badCommand tag := by
  rw [examineWhole, if_pos h, commandOfCode_of_unknown hcode]

theorem examineWhole_of_badPayload {tag length check : Byte} {c : Command} {payload : List Byte}
    (h : check = crc8 (commandCode c :: tag :: length :: payload)) (hp : decodePayload tag c payload = none) :
    examineWhole (commandCode c) tag length payload check = .refused .badLength tag := by
  simp only [examineWhole, if_pos h, commandOfCode_commandCode, hp]

theorem examineWhole_of_goodPayload {tag length check : Byte} {c : Command} {payload : List Byte} {i : Instr}
    (h : check = crc8 (commandCode c :: tag :: length :: payload)) (hp : decodePayload tag c payload = some i) :
    examineWhole (commandCode c) tag length payload check = .accepted i := by
  simp only [examineWhole, if_pos h, commandOfCode_commandCode, hp]

end Sys2Proof
end

section
/-! SUPPORT. What a frame does to a ready link (R176, R183): the commands that only answer, and how a source number and a group
number are read (sections 9.5 and 9.6). -/

namespace Sys2Proof.Machine

open Sys2Proof.Safety

/-- A command whose effect on the received frame is an answer over some state answers over that state (R183). -/
theorem takeCommand_eq_answered {i : Instr} {s t : State} {effect : State → State} {st : Status} {tag : Byte}
    {payload : List Byte} (hs : LinkReady s)
    (he : effect (s.frameEnds .complete (encodeFrame i)) = (t.frameEnds .complete (encodeFrame i)).respond st tag payload) :
    takeCommand i s effect = .next (answered i st tag payload t) := by
  obtain ⟨hreset, hresetting, hreceive⟩ := hs
  rw [takeCommand, takeFrame_of_ready _ _ _ hreset hresetting hreceive, he]
  rfl

theorem execFrameTruncated_of_ready {bytes : List Byte} {s : State} (hs : LinkReady s) (hne : bytes ≠ [])
    (h : examineFrame bytes = .incomplete) :
    execFrameTruncated bytes s = .next ((s.frameEnds .closed bytes).respond .truncated 0 []) := by
  obtain ⟨hreset, hresetting, hreceive⟩ := hs
  have hcut : truncatedBytes bytes = true := by simp [truncatedBytes, hne, h]
  rw [execFrameTruncated, if_pos hcut, takeFrame_of_ready _ _ _ hreset hresetting hreceive]

theorem execFrameRefused_of_ready {bytes : List Byte} {st : Status} {tag : Byte} {s : State} (hs : LinkReady s)
    (h : examineFrame bytes = .refused st tag) :
    execFrameRefused bytes s = .next ((s.frameEnds .complete bytes).respond st tag []) := by
  obtain ⟨hreset, hresetting, hreceive⟩ := hs
  simp only [execFrameRefused, h, takeFrame_of_ready _ _ _ hreset hresetting hreceive]

/-! ### The number that a source or group command names first -/

theorem withSource_of_beyond {b : Byte} (tag : Byte) (s : State) (k : SourceNo → State) (h : 3 < b.toNat) :
    withSource tag b s k = s.respond .badArgument tag [] := by
  simp [withSource, sourceOfByte, Nat.not_lt.mpr (Nat.succ_le_of_lt h)]

theorem withSource_of_val {b : Byte} {n : SourceNo} (tag : Byte) (s : State) (k : SourceNo → State) (h : n.val = b.toNat) :
    withSource tag b s k = k n := by
  simp [withSource, sourceOfByte, ← h]

theorem withGroup_of_beyond {b : Byte} (tag : Byte) (s : State) (k : GroupNo → State) (h : 31 < b.toNat) :
    withGroup tag b s k = s.respond .badArgument tag [] := by
  simp [withGroup, groupOfByte, Nat.not_lt.mpr (Nat.succ_le_of_lt h)]

theorem withGroup_of_val {b : Byte} {g : GroupNo} (tag : Byte) (s : State) (k : GroupNo → State) (h : g.val = b.toNat) :
    withGroup tag b s k = k g := by
  simp [withGroup, groupOfByte, ← h]

/-- A flag as a payload byte, 0x01 or 0x00. -/
theorem flagByte_eq (b : Bool) : flagByte b = if b then 0x01 else 0x00 := by cases b <;> rfl

end Sys2Proof.Machine
end

section
/-! PROOFS. The obligations about frames: the examination of a complete frame, and a frame cut short (R178, R179). -/

namespace Sys2Proof.Machine

/-- Settles O7, row by row of R179: each row's condition selects one branch of the examination, and a payload is decoded exactly
when its length is one the command accepts. -/
theorem frameExaminationOrder : Obligations.FrameExaminationOrder := by
  refine ⟨fun code tag length rest h => examineFrame_of_longLength code tag rest h, ?complete,
    fun bytes st tag s hs h => execFrameRefused_of_ready hs h⟩
  intro code tag length check payload after hle hlen
  have hfit : payload.length ≤ Config.maxPayload := hlen.trans_le hle
  rw [examineFrame_of_complete code tag check after hle hlen, ← hlen]
  refine ⟨examineWhole_of_badCheck, fun hcheck => ⟨examineWhole_of_unknownCode hcheck, ?known⟩⟩
  rintro c rfl
  refine ⟨fun hbad => ?refused, fun hgood => ?accepted⟩
  case refused => exact examineWhole_of_badPayload hcheck (decodePayload_of_not_acceptedLength tag hfit hbad)
  case accepted =>
    obtain ⟨i, hi⟩ := decodePayload_of_acceptedLength tag hgood
    exact ⟨i, examineWhole_of_goodPayload hcheck hi, framePayload_of_decodePayload hi⟩

/-- Settles O6: a frame begun and not complete is well formed as a truncated frame, and a ready link answers it (R178). -/
theorem truncatedFrameIsAnswered : Obligations.TruncatedFrameIsAnswered :=
  fun _bytes _s hs hne h => execFrameTruncated_of_ready hs hne h

end Sys2Proof.Machine
end

section
/-! PROOFS. The obligations about the device and event commands (R168, R170, R185, R186, R196, R197, R205). -/

namespace Sys2Proof.Machine

open Sys2Proof.Safety

/-- Settles O10: each of the three commands answers over the state it leaves, which is the same state for IDENTIFY. -/
theorem deviceReadsAndEventMask : Obligations.DeviceReadsAndEventMask :=
  ⟨fun _tag _s hs => takeCommand_eq_answered hs rfl, fun _tag _s hs => takeCommand_eq_answered hs rfl,
    fun _tag _mask _s hs => takeCommand_eq_answered hs rfl⟩

/-! ### READ_EVENTS -/

theorem readEvents_of_badCount {n : Byte} (tag : Byte) (s : State) (h : n.toNat = 0 ∨ 25 < n.toNat) :
    readEvents tag n s = s.respond .badArgument tag [] := by
  have hn : n = 0 ∨ Config.maxRecords < n.toNat := h.imp_left BitVec.eq_of_toNat_eq
  rw [readEvents, if_pos hn]

theorem readEvents_of_goodCount {n : Byte} (tag : Byte) (s : State) (h1 : 1 ≤ n.toNat) (h25 : n.toNat ≤ 25) :
    readEvents tag n s = (s.setEvents (s.events.remove n.toNat)).respond .ok tag (s.events.report n.toNat) := by
  have hn : ¬ (n = 0 ∨ Config.maxRecords < n.toNat) := by
    rintro (rfl | hlarge)
    · exact absurd h1 (by decide)
    · exact absurd h25 (Nat.not_le_of_lt hlarge)
  rw [readEvents, if_neg hn]

/-- ALERT stays high exactly while the removal leaves a record (R171). -/
theorem EventQueue.remove_eq (n : Nat) (q : EventQueue) :
    q.remove n = { q with records := q.records.drop n, dropCount := 0, alert := decide (n < q.records.length) } := by
  have halert : (!(q.records.drop n).isEmpty) = decide (n < q.records.length) := by
    rw [Bool.eq_iff_iff]
    simp
  rw [EventQueue.remove, halert]

theorem EventQueue.report_eq (q : EventQueue) (n : Nat) :
    q.report n = bytes16 q.dropCount ++ [BitVec.ofNat 8 (min n q.records.length)]
      ++ (q.records.take n).flatMap EventRecord.bytes := by
  rw [EventQueue.report, List.length_take]

/-- The first byte of an event record holds three presence bits, a 0 and the kind's code, in this order (R205). -/
theorem recordHeader_fields : ∀ (g s p : BitVec 1) (k : BitVec 4),
    let b : Byte := g ++ s ++ p ++ 0#1 ++ k
    b.getLsbD 7 = g.getLsbD 0 ∧ b.getLsbD 6 = s.getLsbD 0 ∧ b.getLsbD 5 = p.getLsbD 0 ∧ b.getLsbD 4 = false ∧
      b.toNat % 16 = k.toNat := by
  decide

theorem presenceBit_getLsbD (b : Bool) : (bif b then 1 else 0 : BitVec 1).getLsbD 0 = b := by cases b <;> rfl

/-- The kinds stand in the table of R205 in the order of their codes. -/
theorem EventKind.code_eq_idxOf (k : EventKind) :
    k.code.toNat = [EventKind.imageLate, .sealCoalesced, .sealRejected, .imageDamaged, .poolExhausted, .commitBehind,
      .commitFault, .groupStale, .groupRecovered, .captureBehind, .captureFault, .holdExpired, .syncMissed, .syncLost,
      .syncRegained, .groupDrained].idxOf k := by
  cases k <;> rfl

/-- Settles O11: the number of records asked for selects the refusal or the removal, and the first byte of a record is read
field by field. -/
theorem readEventsRemovesFromTheHead : Obligations.ReadEventsRemovesFromTheHead := by
  intro tag n s hs
  refine ⟨fun hbad => ?refused, fun h1 h25 => ?removed, fun e => ?record⟩
  case refused => exact takeCommand_eq_answered hs (readEvents_of_badCount tag _ hbad)
  case removed =>
    refine takeCommand_eq_answered hs ?_
    rw [readEvents_of_goodCount tag _ h1 h25, EventQueue.remove_eq, EventQueue.report_eq]
    rfl
  case record =>
    obtain ⟨h7, h6, h5, h4, hkind⟩ := recordHeader_fields (bif e.group.isSome then 1 else 0)
      (bif e.source.isSome then 1 else 0) (bif e.epoch.isSome then 1 else 0) e.kind.code
    exact ⟨_, rfl, rfl, h7.trans (presenceBit_getLsbD _), h6.trans (presenceBit_getLsbD _),
      h5.trans (presenceBit_getLsbD _), h4, hkind.trans e.kind.code_eq_idxOf⟩

end Sys2Proof.Machine
end

section
/-! PROOFS. The obligation about READ_SOURCE (R95, R190). -/

namespace Sys2Proof.Machine

open Sys2Proof.Safety

/-! ### The report of a source slot, kind by kind -/

theorem Source.report_of_undefined {x : Source} (h : x.record = none) :
    x.report = [0x00, 0x00] ++ bytes32 x.epoch ++ [0x00, if x.skip then 0x01 else 0x00, 0x00] := by
  simp [Source.report, Source.stateByte, Source.lockByte, Source.holdoverByte, Source.phaseByte, flagByte_eq, h]

theorem Source.report_of_timer {x : Source} {r : SourceRecord} {period : BitVec 16} (h : x.record = some r)
    (hk : r.kind = .timer period) :
    x.report = [if x.running then 0x02 else 0x01, 0xFF] ++ bytes32 x.epoch
      ++ [0x00, if x.skip then 0x01 else 0x00, 0x00] := by
  simp [Source.report, Source.stateByte, Source.lockByte, Source.holdoverByte, Source.phaseByte, flagByte_eq, h, hk]

theorem Source.report_of_external {x : Source} {r : SourceRecord} {period guard : BitVec 16} {limit : Byte} {line : SyncLine}
    (h : x.record = some r) (hk : r.kind = .external period guard limit line) :
    x.report = [if x.running then 0x02 else 0x01, x.lock.code] ++ bytes32 x.epoch
      ++ [x.holdover, if x.skip then 0x01 else 0x00, 0x00] := by
  simp [Source.report, Source.stateByte, Source.lockByte, Source.holdoverByte, Source.phaseByte, flagByte_eq, h, hk]

theorem Source.report_of_divided {x : Source} {r : SourceRecord} {parent : SourceNo} {divisor : Nat}
    (h : x.record = some r) (hk : r.kind = .divided parent divisor) :
    x.report = [if x.running then 0x02 else 0x01, 0xFF] ++ bytes32 x.epoch
      ++ [0x00, if x.skip then 0x01 else 0x00, BitVec.ofNat 8 x.phase] := by
  simp [Source.report, Source.stateByte, Source.lockByte, Source.holdoverByte, Source.phaseByte, flagByte_eq, h, hk]

theorem execReadSource_of_val {tag b : Byte} {s : State} {n : SourceNo} (hs : LinkReady s) (hn : n.val = b.toNat) :
    execReadSource tag b s = .next (answered (.readSource tag b) .ok tag (s.source n).report s) :=
  takeCommand_eq_answered hs (withSource_of_val tag _ _ hn)

/-- Settles O15, by the kind of the slot's record, and for an EXTERNAL source by its lock sub-state. -/
theorem readSourceReports : Obligations.ReadSourceReports := by
  intro tag b s hs
  refine ⟨fun hb => takeCommand_eq_answered hs (withSource_of_beyond tag _ _ hb), fun n hn => ?_⟩
  refine (execReadSource_of_val hs hn).trans ?_
  rcases hrec : (s.source n).record with - | r
  case none => rw [Source.report_of_undefined hrec]; rfl
  case some =>
    rcases hk : r.kind with period | ⟨period, guard, limit, line⟩ | ⟨parent, divisor⟩
    case timer => rw [Source.report_of_timer hrec hk]; simp [hk]
    case external =>
      rw [Source.report_of_external hrec hk]
      cases hl : (s.source n).lock <;> simp [hk, LockState.code]
    case divided => rw [Source.report_of_divided hrec hk]; simp [hk]

end Sys2Proof.Machine
end

section
/-! PROOFS. The obligation about READ_GROUP (R9, R157, R195). -/

namespace Sys2Proof.Machine

open Sys2Proof.Safety

theorem execReadGroup_of_val {tag b : Byte} {s : State} {g : GroupNo} (hs : LinkReady s) (hg : g.val = b.toNat) :
    execReadGroup tag b s = .next (answered (.readGroup tag b) .ok tag (groupReport (s.group g)) s) :=
  takeCommand_eq_answered hs (withGroup_of_val tag _ _ hg)

/-! ### The fields of the report -/

theorem GroupState.code_eq (st : GroupState) :
    st.code = (match st with
      | .disabled => 0x01
      | .live => 0x02
      | .safe => 0x03
      | .draining => 0x04) := by
  cases st <;> rfl

theorem Group.fillingEntries_eq (x : Group) :
    x.filling.elim 0 (fun f => f.entries.length) = ((x.filling.map Filling.entries).getD []).length := by
  cases x.filling <;> rfl

theorem Group.armedEntries_eq (x : Group) : x.armed.elim 0 List.length = (x.armed.getD []).length := by
  cases x.armed <;> rfl

/-- A reference to the safe image counts that image's entries (R9). -/
theorem Group.committingEntries_eq (x : Group) :
    x.committingEntries = (match x.committing with
      | some (.commit img) => img.length
      | some .safe => (x.safeImage.getD []).length
      | none => 0) := by
  unfold Group.committingEntries Group.jobImage
  rcases x.committing with - | img | -
  · rfl
  · rfl
  · exact List.length_map _

theorem Group.damagedFlag_eq (x : Group) :
    flagByte (x.filling.elim false Filling.damaged) = if (x.filling.map Filling.damaged) = some true then 0x01 else 0x00 := by
  cases x.filling <;> simp [flagByte_eq]

/-- The seq count is reported in four bytes with its upper two bits 0 (R195). -/
theorem setWidth_seqCount (c : BitVec 30) : c.setWidth 32 = 0#2 ++ c := BitVec.setWidth_eq_append (by decide)

theorem groupReport_of_output {x : Group} (h : x.record.kind = .output) :
    groupReport (some x) = [x.state.code, 0x00] ++ x.outputReport ++ List.replicate 8 0x00 := by
  simp only [groupReport, h]

theorem groupReport_of_input {x : Group} (h : x.record.kind = .input) :
    groupReport (some x) = [x.state.code, 0x01] ++ List.replicate 20 0x00 ++ x.inputReport := by
  simp only [groupReport, h]

theorem Group.frontEpoch_eq (x : Group) : x.front.elim 0 Bank.epoch = (x.front.map Bank.epoch).getD 0 := by
  cases x.front <;> rfl

theorem Group.emptyFlag_eq (x : Group) : flagByte x.front.isNone = if x.front = none then 0x01 else 0x00 := by
  cases x.front <;> rfl

/-- Settles O46, by the kind of the slot's record: the report of each kind is the one of R195 with every field written out. -/
theorem readGroupReports : Obligations.ReadGroupReports := by
  intro tag b s hs
  refine ⟨fun hb => takeCommand_eq_answered hs (withGroup_of_beyond tag _ _ hb), fun g hg => ⟨fun hnone => ?undefined, ?defined⟩⟩
  case undefined => exact (execReadGroup_of_val hs hg).trans (by rw [hnone]; rfl)
  case defined =>
    rintro x hx code rfl
    have hread := execReadGroup_of_val (tag := tag) hs hg
    rw [Option.mem_def.mp hx] at hread
    refine ⟨fun hk => hread.trans ?_, fun hk => hread.trans ?_⟩
    · rw [groupReport_of_output hk, Group.outputReport, GroupState.code_eq, x.fillingEntries_eq, x.armedEntries_eq,
        x.committingEntries_eq, x.damagedFlag_eq, setWidth_seqCount]
      rfl
    · rw [groupReport_of_input hk, Group.inputReport, GroupState.code_eq, x.frontEpoch_eq, x.emptyFlag_eq, flagByte_eq,
        flagByte_eq]
      rfl

end Sys2Proof.Machine
end

section
/-! SUPPORT. What a step can do to the part, said once: a claim moves one group, creates or ends a job, grants or frees the port, or
changes something that the laws of groups, stores, engine and events do not read.  Every command is a run of such acts. -/

namespace Sys2Proof.Machine

open Sys2Proof.Safety

/-! ### The acts -/

/-- The commands that can change a source. -/
def movesSources : Instr → Bool
  | .timerExpiry _ | .syncRisingEdge _ | .watchExpiry _ | .standInExpiry _ | .absorbWindowClose _ | .parentEdgeDelivery _ _
  | .resetDevice _ | .defineSource _ _ | .startSource _ _ | .stopSource _ _ | .skipEdge _ _ _ | .insertEdge _ _ => true
  | _ => false

/-- What a claim can make of an enabled group, and of the free stage entries with it, while the group's jobs stay as they are. -/
inductive Group.Moves (free : Nat) (x : Group) : Group → Nat → Prop
  | merge (f : Filling) (off : Byte) (w : PortWord) (hk : x.record.kind = .output) (hs : x.state = .live ∨ x.state = .safe)
      (hf : f = x.filling.getD Filling.fresh) (hh : Image.holds f.entries off = true) (hl : w.lanes ≠ 0) :
      Moves free x { x with filling := some { f with entries := Image.mergeAt f.entries off w.data w.lanes } } free
  | append (f : Filling) (off : Byte) (w : PortWord) (hk : x.record.kind = .output) (hs : x.state = .live ∨ x.state = .safe)
      (hf : f = x.filling.getD Filling.fresh) (hh : Image.holds f.entries off = false) (hl : w.lanes ≠ 0)
      (ho : off.toNat < x.record.length) (hp : free ≠ 0) :
      Moves free x { x with filling := some { f with
        entries := f.entries ++ [{ offset := off, data := w.data, lanes := w.lanes }] } } (free - 1)
  | damage (f : Filling) (hk : x.record.kind = .output) (hs : x.state = .live ∨ x.state = .safe)
      (hf : f = x.filling.getD Filling.fresh) :
      Moves free x { x with filling := some { f with damaged := true } } free
  | discard (f : Filling) (d r : BitVec 16) (hf : x.filling = some f) :
      Moves free x { x with filling := none, damaged := d, rejected := r } (free + f.entries.length)
  | arm (f : Filling) (hf : x.filling = some f) (ha : x.armed = none) :
      Moves free x { x with filling := none, armed := some f.entries } free
  | coalesce (f : Filling) (armed : Image) (c : BitVec 16) (hf : x.filling = some f) (ha : x.armed = some armed) :
      Moves free x { x with filling := none, armed := some (Image.coalesce armed f.entries), coalesced := c }
        (free + (armed.length + f.entries.length - (Image.coalesce armed f.entries).length))
  | behind (b : BitVec 16) : Moves free x { x with behind := b } free
  | stale (hs : x.state = .live) (h0 : x.record.staleLimit ≠ 0) (hn : x.staleCount + 1 ≠ x.record.staleLimit) :
      Moves free x { x with staleCount := x.staleCount + 1 } free
  | enterSafe (b : Bool) (hk : x.record.kind = .output) (hs : x.state = .live) (h0 : x.record.staleLimit ≠ 0)
      (hn : x.staleCount + 1 = x.record.staleLimit) :
      Moves free x { x with state := .safe, staleCount := x.staleCount + 1, pendingSafe := b } free
  | resume (hk : x.record.kind = .output) (hs : x.state = .safe) :
      Moves free x { x with state := .live, staleCount := 0, pendingSafe := false } free
  | countHold (c : Byte) : Moves free x { x with holdCount := c } free
  | hold (hs : x.state ≠ .disabled) : Moves free x x.hold free
  | swap (c : Byte) (hs : x.state = .live) :
      Moves free x { ({ x with holdCount := c } : Group).swapPending with held := false } free
  | unhold (h : x.held = true → x.state ≠ .live) : Moves free x { x with held := false } free
  | drainOutput (hk : x.record.kind = .output) (hs : x.state = .live ∨ x.state = .safe) :
      Moves free x { x with state := .draining, filling := none, armed := none, pendingSafe := false }
        (free + (x.filling.elim 0 (fun f => f.entries.length) + x.armed.elim 0 List.length))
  | drainInput (bk : BackBank) (hk : x.record.kind = .input) (hs : x.state = .live ∨ x.state = .safe)
      (hb : bk = .idle ∧ x.back.isPending = true ∨ bk = x.back ∧ x.back.isPending = false) :
      Moves free x { x with state := .draining, back := bk } free

/-- A job leaves the running position, and the port is p afterwards: the engine waits for no answer and the job is a capture exactly
when its phase is, or the last request of the job has been answered. -/
def Leaves (s : State) (j : Job) (capture : Bool) (p : Option PortUse) : Prop :=
  s.engine.running = some j ∧
    (s.engineBusy = false ∧ p = s.port ∧ (j.phase = .capture ↔ capture = true) ∨
      p = none ∧ ∃ q, s.port = some ⟨if capture then .burst else .closing, q⟩)

/-- One act of the part, done by the command i. -/
inductive Act (i : Instr) (s : State) : State → Prop
  | loose (h : HostPath) (es : List Edge) (r : Option Resetting) (p : List Instr) (src : Vector Source 4)
      (hsrc : src = s.sources ∨ movesSources i = true) :
      Act i s { s with host := h, edges := es, resetting := r, pending := p, sources := src }
  | raise (e : EventRecord) : Act i s (s.raise e)
  | remove (n : Nat) : Act i s (s.setEvents (s.events.remove n))
  | mask (m : BitVec 16) : Act i s (s.setEvents { s.events with mask := m })
  | clear : Act i s (s.setEvents s.events.clear)
  | link (l : Link) (hr : l.response = s.link.response ∨ ResponseOk l.response)
      (ht : l.transmit = s.link.transmit ∨ l.transmit = s.link.response) : Act i s (s.setLink l)
  | release : Act i s (s.setPort none)
  | moves (g : GroupNo) (x y : Group) (n : Nat) (hx : s.group g = some x) (hm : x.Moves s.freeStage y n) :
      Act i s ((s.setGroup g y).setFreeStage n)
  | commit (g : GroupNo) (x : Group) (img : Image) (j : Job) (hx : s.group g = some x) (hk : x.record.kind = .output)
      (hs : x.state = .live ∨ x.state = .safe) (ha : x.armed = some img) (hc : x.committing = none)
      (hj : j.kind = .commit ∧ j.group = g ∧ j.count = x.seqCount + 1 ∧ j.phase ≠ .capture) :
      Act i s ((s.setGroup g { x with
        state := .live, armed := none, committing := some (.commit img), staleCount := 0 }).appendJob j)
  | safe (g : GroupNo) (x : Group) (j : Job) (hx : s.group g = some x) (hk : x.record.kind = .output)
      (hs : x.state = .safe) (hc : x.committing = none)
      (hj : j.kind = .safe ∧ j.group = g ∧ j.count = x.seqCount + 1 ∧ j.phase ≠ .capture) :
      Act i s ((s.setGroup g { x with committing := some .safe, pendingSafe := false }).appendJob j)
  | capture (g : GroupNo) (x : Group) (epoch : BitVec 32) (hx : s.group g = some x) (hk : x.record.kind = .input)
      (hs : x.state = .live) (hc : x.captureInFlight = false) :
      Act i s ((s.setGroup g { x with captureInFlight := true }).appendJob (newCaptureJob g epoch))
  | dispatch (j : Job) (rest : List Job) (hb : s.engineBusy = false) (hr : s.engine.running = none)
      (hq : s.engine.queue = j :: rest)
      (hk : j.kind = .capture → ∀ x, s.group j.group = some x → x.record.kind = .output) :
      Act i s (s.setEngine { s.engine with queue := rest, running := some j })
  | dispatchCapture (j : Job) (rest : List Job) (x : Group) (hb : s.engineBusy = false) (hr : s.engine.running = none)
      (hq : s.engine.queue = j :: rest) (hj : j.kind = .capture) (hx : s.group j.group = some x)
      (hk : x.record.kind = .input) :
      Act i s ((s.setEngine { s.engine with queue := rest, running := some j }).setGroup j.group
        { x with back := .filling [] })
  | turn (j k : Job) (e : Engine) (hb : s.engineBusy = false) (hr : s.engine.running = some j) (hj : j.phase = .release)
      (hk : k = { j with phase := .engage, progress := 0 })
      (he : e = { s.engine with running := none, queue := s.engine.queue ++ [k] } ∨
        e = { s.engine with running := none, marginList := s.engine.marginList ++ [k] }) :
      Act i s (s.setEngine e)
  | leave (j : Job) (c : Bool) (p : Option PortUse) (hl : Leaves s j c p)
      (hn : ∀ x, s.group j.group = some x → x.record.kind = if c then .output else .input) :
      Act i s ((s.setPort p).setRunning none)
  | complete (j : Job) (x : Group) (p : Option PortUse) (hl : Leaves s j false p) (hx : s.group j.group = some x)
      (hk : x.record.kind = .output) :
      Act i s ((((s.setPort p).setRunning none).setGroup j.group { x with
        state := if x.state = .draining then .disabled else x.state, seqCount := j.count, committing := none }).setFreeStage
          (s.freeStage + x.committing.elim 0 Committing.stageEntries))
  | captured (j : Job) (x : Group) (front : Option Bank) (back : BackBank) (p : Option PortUse) (hl : Leaves s j true p)
      (hx : s.group j.group = some x) (hk : x.record.kind = .input) (hs : x.state ≠ .draining)
      (hb : front = x.front ∧ back = .idle ∨
        (x.state = .live ∧ x.record.length ≤ j.progress ∧
          ((x.held = true ∧ front = x.front ∧ back = .pending { epoch := j.epoch, words := x.back.words }) ∨
           (x.held = false ∧ front = some { epoch := j.epoch, words := x.back.words } ∧ back = .idle)))) :
      Act i s (((s.setPort p).setRunning none).setGroup j.group
        { x with captureInFlight := false, front := front, back := back })
  | drained (j : Job) (x : Group) (p : Option PortUse) (hl : Leaves s j true p)
      (hx : s.group j.group = some x) (hk : x.record.kind = .input) (hs : x.state = .draining) :
      Act i s ((((s.setPort p).setRunning none).setGroup j.group { x with
        state := .disabled, front := none, back := .idle, held := false, captureInFlight := false }).setFreeSnapshot
          (s.freeSnapshot + 2 * x.record.length))
  | answer (j k : Job) (u : PortUse) (hp : s.port = some u) (hr : s.engine.running = some j)
      (hu : u.purpose = .opening ∨ u.purpose = .dataWrite ∨ u.purpose = .releaseRead ∨ u.purpose = .releaseWrite ∨
        u.purpose = .closing)
      (hk : k.kind = j.kind ∧ k.group = j.group ∧ k.count = j.count ∧ k.phase = j.phase) :
      Act i s ((s.setPort none).setRunning (some k))
  | burst (j : Job) (x : Group) (data : List Word) (q : PortRequest) (hp : s.port = some ⟨.burst, q⟩)
      (hr : s.engine.running = some j) (hd : data.length = q.words.length) (hx : s.group j.group = some x)
      (hk : x.record.kind = .input) :
      Act i s (((s.setPort none).setGroup j.group { x with back := .filling (x.back.words ++ data) }).setRunning
        (some { j with progress := j.progress + data.length }))
  | strayBurst (j : Job) (n : Nat) (q : PortRequest) (hp : s.port = some ⟨.burst, q⟩) (hr : s.engine.running = some j)
      (hn : ∀ x, s.group j.group = some x → x.record.kind = .output) :
      Act i s ((s.setPort none).setRunning (some { j with progress := n }))
  | margin (g : GroupNo) : Act i s (marginExpired g s)
  | grantEngine (u : PortUse) (n : Nat) (hp : s.port = none) (hu : s.engineAsk = some u)
      (hn : n = 0 ∨ s.streak < Config.streakLimit ∧ n ≤ s.streak + 1) : Act i s (grantEngine u n s)
  | grantHost (v : PortUse) (hp : s.port = none) (hv : v.purpose = .run ∨ v.purpose = .layered) : Act i s (grantHost v s)
  | abandon (hp : s.port = none) :
      Act i s { s with
        groups := s.groups.map (fun o => o.map Group.abandoned), freeStage := Config.stageEntries
        freeSnapshot := Config.snapshotWords, engine := Engine.empty, streak := 0 }
  | enableOutput (g : GroupNo) (x : Group) (hx : s.group g = some x) (hk : x.record.kind = .output)
      (hs : x.state = .disabled) (hi : ∃ tag b, i = .enableGroup tag b) : Act i s (s.setGroup g x.enableOutput)
  | enableInput (g : GroupNo) (x : Group) (hx : s.group g = some x) (hk : x.record.kind = .input)
      (hs : x.state = .disabled) (hw : s.enabledInputWords + x.record.length ≤ Config.inputWords) :
      Act i s ((s.setGroup g x.enableInput).setFreeSnapshot (s.freeSnapshot - 2 * x.record.length))
  | disableOutput (g : GroupNo) (x : Group) (hx : s.group g = some x) (hk : x.record.kind = .output)
      (hs : x.state = .live ∨ x.state = .safe) (hc : x.committing = none) :
      Act i s ((s.setGroup g { x with state := .disabled, filling := none, armed := none, pendingSafe := false }).setFreeStage
        (s.freeStage + (x.filling.elim 0 (fun f => f.entries.length) + x.armed.elim 0 List.length)))
  | disableInput (g : GroupNo) (x : Group) (hx : s.group g = some x) (hk : x.record.kind = .input)
      (hs : x.state = .live ∨ x.state = .safe) (hc : x.captureInFlight = false) :
      Act i s ((s.setGroup g { x with state := .disabled, front := none, back := .idle, held := false }).setFreeSnapshot
        (s.freeSnapshot + 2 * x.record.length))
  | define (g : GroupNo) (tag : Byte) (f : GroupFields) (hi : i = .defineGroup tag f) (hd : s.definable g = true)
      (hv : (rangeFieldsValid f && kindFieldsValid f && (recordOfFields f).seqValid
        && s.clearOfOthers g (recordOfFields f)) = true) :
      Act i s ((s.setGroup g (Group.defined (recordOfFields f))).setFreeSafe (s.freeSafe + s.slotSafeEntries g))
  | delete (g : GroupNo) (x : Group) (tag b : Byte) (hi : i = .deleteGroup tag b) (hx : s.group g = some x)
      (hs : x.state = .disabled) : Act i s ((s.clearGroup g).setFreeSafe (s.freeSafe + x.safeEntries))
  | loadSafe (g : GroupNo) (x : Group) (tag b first : Byte) (loads : List SafeEntry) (hi : i = .loadSafe tag b first loads)
      (hx : s.group g = some x) (hs : x.state = .disabled)
      (hl : ∀ l ∈ loads, l.offset.toNat < x.record.length)
      (hf : (loadedImage x first loads).length ≤ s.freeSafe + x.safeEntries) :
      Act i s ((s.setGroup g { x with safeImage := some (loadedImage x first loads) }).setFreeSafe
        (s.freeSafe + x.safeEntries - (loadedImage x first loads).length))

/-- A run of acts of one command. -/
abbrev Work (i : Instr) : State → State → Prop := Relation.ReflTransGen (Act i)

/-! ### Acts that the laws do not read -/

theorem Work.one {i : Instr} {s t : State} (h : Act i s t) : Work i s t := .single h

theorem Work.setHost (i : Instr) (s : State) (h : HostPath) : Work i s (s.setHost h) :=
  .single (.loose h s.edges s.resetting s.pending s.sources (.inl rfl))

theorem Work.setActive (i : Instr) (s : State) (a : Option ActiveRequest) : Work i s (s.setActive a) := Work.setHost i s _

theorem Work.respondHost (i : Instr) (s : State) (r : HostResponse) : Work i s (respondHost r s) := Work.setHost i s _

theorem Work.setEdges (i : Instr) (s : State) (es : List Edge) : Work i s (s.setEdges es) :=
  .single (.loose s.host es s.resetting s.pending s.sources (.inl rfl))

theorem Work.setResetting (i : Instr) (s : State) (r : Option Resetting) : Work i s { s with resetting := r } :=
  .single (.loose s.host s.edges r s.pending s.sources (.inl rfl))

theorem Work.setPending (i : Instr) (s : State) (p : List Instr) : Work i s { s with pending := p } :=
  .single (.loose s.host s.edges s.resetting p s.sources (.inl rfl))

theorem Work.respond (i : Instr) (s : State) (st : Status) (tag : Byte) (payload : List Byte)
    (hl : payload.length ≤ 228) (ho : st ≠ .ok → payload = []) : Work i s (s.respond st tag payload) :=
  .single (.link _ (.inr ⟨hl, ho⟩) (.inl rfl))

/-- An answer without payload. -/
theorem Work.reply (i : Instr) (s : State) (st : Status) (tag : Byte) : Work i s (s.respond st tag []) :=
  .respond i s st tag [] (Nat.zero_le _) (fun _ => rfl)

theorem Work.frameEnds (i : Instr) (s : State) (r : Receive) (b : List Byte) : Work i s (s.frameEnds r b) :=
  .single (.link _ (.inl rfl) (.inl rfl))

theorem Work.discardFrame (i : Instr) (s : State) : Work i s s.discardFrame := .single (.link _ (.inl rfl) (.inl rfl))

/-! ### Groups -/

theorem Work.moves {i : Instr} {s : State} {g : GroupNo} {x y : Group} {n : Nat} (hx : s.group g = some x)
    (hm : x.Moves s.freeStage y n) : Work i s ((s.setGroup g y).setFreeStage n) := .single (.moves g x y n hx hm)

/-- A move that leaves the stage pool alone. -/
theorem Work.moves_setGroup {i : Instr} {s : State} {g : GroupNo} {x y : Group} (hx : s.group g = some x)
    (hm : x.Moves s.freeStage y s.freeStage) : Work i s (s.setGroup g y) := .single (.moves g x y _ hx hm)

theorem Work.raise {i : Instr} {s t : State} (h : Work i s t) (e : EventRecord) : Work i s (t.raise e) := h.tail (.raise e)

/-! ### The class of a word -/

/-- Everything the class of a word in a group's range can be (R52). -/
theorem rangeClass_cases (g : GroupNo) (x : Group) (off : Byte) :
    (x.record.kind = .output ∧ x.state = .draining ∧ rangeClass g x off = .draining g off) ∨
    (x.record.kind = .output ∧ x.state ≠ .draining ∧ off = x.record.sealOffset ∧ rangeClass g x off = .outputSeal g off) ∨
    (x.record.kind = .output ∧ x.state ≠ .draining ∧ off ≠ x.record.sealOffset ∧ rangeClass g x off = .outputData g off) ∨
    (x.record.kind = .input ∧ x.record.stampOffset = some off ∧ rangeClass g x off = .inputStamp g off) ∨
    (x.record.kind = .input ∧ x.record.stampOffset ≠ some off ∧ rangeClass g x off = .inputData g off) := by
  unfold rangeClass
  split
  · next hk =>
    split
    · next hd => exact .inl ⟨hk, hd, rfl⟩
    · next hd =>
      split
      · next ho => exact .inr (.inl ⟨hk, hd, ho, rfl⟩)
      · next ho => exact .inr (.inr (.inl ⟨hk, hd, ho, rfl⟩))
  · next hk =>
    split
    · next ho => exact .inr (.inr (.inr (.inl ⟨hk, ho, rfl⟩)))
    · next ho => exact .inr (.inr (.inr (.inr ⟨hk, ho, rfl⟩)))

/-- Only an enabled group gives a word a class: that of its range, or that of its sequence word (R52). -/
theorem groupClass_eq_some {g : GroupNo} {x : Group} {a : Nat} {c : WordClass} (h : groupClass g x a = some c) :
    x.state ≠ .disabled ∧
      ((x.record.covers a = true ∧ c = rangeClass g x (BitVec.ofNat 8 (a - x.record.baseWord))) ∨
       (x.record.covers a = false ∧ x.record.seqWord = some a ∧ c = .seqProtected g)) := by
  unfold groupClass at h
  split at h
  · cases h
  · next he =>
    refine ⟨by simpa [Group.enabled] using he, ?_⟩
    split at h
    · next hc => exact .inl ⟨hc, (Option.some.inj h).symm⟩
    · next hc =>
      split at h
      · next hs => exact .inr ⟨by simpa using hc, hs, (Option.some.inj h).symm⟩
      · cases h

/-- A class other than PASS is given by some group. -/
theorem classify_eq_some {s : State} {a : WordAddr} {c : WordClass} (h : classify s a = c) (hc : c ≠ .pass) :
    ∃ g x, s.group g = some x ∧ groupClass g x a.toNat = some c := by
  unfold classify at h
  rcases hf : (List.finRange 32).findSome? (fun g => (s.group g).bind (fun x => groupClass g x a.toNat)) with - | d
  · rw [hf] at h; exact absurd h.symm hc
  · rw [hf] at h
    obtain ⟨g, -, hg⟩ := List.exists_of_findSome?_eq_some hf
    obtain ⟨x, hx, hd⟩ := Option.bind_eq_some_iff.mp hg
    exact ⟨g, x, hx, by rw [hd]; exact congrArg some h⟩

/-- The offset of a word in a group's range lies below the group's length. -/
theorem offset_of_covers {r : GroupRecord} {a : Nat} (h : r.covers a = true) :
    (BitVec.ofNat 8 (a - r.baseWord)).toNat < r.length := by
  simp only [GroupRecord.covers, Bool.and_eq_true, decide_eq_true_eq] at h
  have : (BitVec.ofNat 8 (a - r.baseWord)).toNat ≤ a - r.baseWord := by
    rw [BitVec.toNat_ofNat]; exact Nat.mod_le _ _
  omega

/-- A group that takes staged words is an output group in LIVE or SAFE, and the word lies in its range (R52). -/
theorem classify_staged {s : State} {a : WordAddr} {g : GroupNo} {off : Byte}
    (h : classify s a = .outputData g off ∨ classify s a = .outputSeal g off) :
    ∃ x, s.group g = some x ∧ x.record.kind = .output ∧ (x.state = .live ∨ x.state = .safe) ∧
      off.toNat < x.record.length := by
  obtain ⟨g', x, hx, hc⟩ := classify_eq_some rfl (show classify s a ≠ .pass by rcases h with h | h <;> rw [h] <;> nofun)
  obtain ⟨he, ⟨hcov, hr⟩ | ⟨-, -, hr⟩⟩ := groupClass_eq_some hc
  · have hlive : x.state ≠ .draining → x.state = .live ∨ x.state = .safe := by
      cases hs : x.state <;> simp_all
    have hoff := offset_of_covers hcov
    rcases rangeClass_cases g' x (BitVec.ofNat 8 (a.toNat - x.record.baseWord)) with
      ⟨-, -, e⟩ | ⟨hk, hd, -, e⟩ | ⟨hk, hd, -, e⟩ | ⟨-, -, e⟩ | ⟨-, -, e⟩ <;> rw [hr, e] at h
    · rcases h with h | h <;> cases h
    · rcases h with h | h <;> cases h
      exact ⟨x, hx, hk, hlive hd, hoff⟩
    · rcases h with h | h <;> cases h
      exact ⟨x, hx, hk, hlive hd, hoff⟩
    · rcases h with h | h <;> cases h
    · rcases h with h | h <;> cases h
  · rw [hr] at h
    rcases h with h | h <;> cases h

/-- A group whose stamp word is written is an enabled input group (R52). -/
theorem classify_stamp {s : State} {a : WordAddr} {g : GroupNo} {off : Byte} (h : classify s a = .inputStamp g off) :
    ∃ x, s.group g = some x ∧ x.record.kind = .input ∧ x.state ≠ .disabled := by
  obtain ⟨g', x, hx, hc⟩ := classify_eq_some h nofun
  obtain ⟨he, ⟨-, hr⟩ | ⟨-, -, hr⟩⟩ := groupClass_eq_some hc
  · rcases rangeClass_cases g' x (BitVec.ofNat 8 (a.toNat - x.record.baseWord)) with
      ⟨-, -, e⟩ | ⟨-, -, -, e⟩ | ⟨-, -, -, e⟩ | ⟨hk, -, e⟩ | ⟨-, -, e⟩ <;> rw [e] at hr <;> cases hr
    exact ⟨x, hx, hk, he⟩
  · cases hr

/-! ### Staging and sealing -/

theorem Work.stageWord {i : Instr} {s : State} {g : GroupNo} {off : Byte} (w : PortWord) {x : Group} (hx : s.group g = some x)
    (hk : x.record.kind = .output) (hs : x.state = .live ∨ x.state = .safe) (ho : off.toNat < x.record.length) :
    Work i s (stageWord g off w s).2 := by
  rcases stageWord_cases g off w s with e | ⟨x', f, hx', hl, hf, hc⟩
  · rw [e]
  · obtain rfl : x' = x := Option.some.inj (hx'.symm.trans hx)
    rcases hc with ⟨hh, e⟩ | ⟨hh, -, e⟩ | ⟨hh, hp, e⟩ <;> rw [e]
    · exact Work.moves_setGroup hx (.merge f off w hk hs hf hh hl)
    · have hd : Work i s (s.setGroup g { x' with filling := some { f with damaged := true } }) :=
        Work.moves_setGroup hx (.damage f hk hs hf)
      show Work i s (refuseForPool g x' f off s)
      unfold refuseForPool
      simp only
      split
      · exact hd
      · exact hd.raise _
    · exact Work.moves hx (.append f off w hk hs hf hh hl ho hp)

theorem Work.sealImage (i : Instr) (g : GroupNo) (s : State) : Work i s (sealImage g s) := by
  rcases sealImage_cases g s with e | ⟨x, f, hx, hf, h⟩
  · rw [e]
  · rcases h with ⟨-, e⟩ | ⟨-, ha, e⟩ | ⟨a, -, ha, -, e⟩ | ⟨a, -, ha, -, e⟩ <;> rw [e]
    · exact (Work.moves hx (.discard f _ x.rejected hf)).raise _
    · exact Work.moves_setGroup hx (.arm f hf ha)
    · exact (Work.moves hx (.coalesce f a _ hf ha)).raise _
    · exact (Work.moves hx (.discard f x.damaged _ hf)).raise _

theorem Work.stampWrite {i : Instr} {s : State} {g : GroupNo} (w : PortWord) {x : Group} (hx : s.group g = some x)
    (hs : x.state ≠ .disabled) : Work i s (stampWrite g w s) := by
  rcases stampWrite_cases g w s with e | ⟨x', hx', e | e⟩ <;> rw [e]
  · obtain rfl : x' = x := Option.some.inj (hx'.symm.trans hx)
    exact Work.moves_setGroup hx (.hold hs)
  · obtain rfl : x' = x := Option.some.inj (hx'.symm.trans hx)
    refine Work.moves_setGroup hx ?_
    unfold Group.release
    split
    · next h =>
      simp only [Bool.and_eq_true, decide_eq_true_eq] at h
      exact .swap x'.holdCount h.2
    · next h => exact .unhold (by simpa using h)

/-! ### Edges at groups -/

theorem Work.edgeBehind {i : Instr} {s : State} {g : GroupNo} {x : Group} (hx : s.group g = some x) (src : SourceNo)
    (epoch : BitVec 32) : Work i s (edgeBehind g x src epoch s) :=
  Work.raise (Work.moves_setGroup hx (.behind _)) _

theorem Group.state_live_eta {x : Group} (h : x.state = .live) : { x with state := .live } = x := by
  cases x; cases h; rfl

/-- A new COMMIT or SAFE job counts one above the group's seq count and is no capture (R99). -/
theorem newImageJob_fields (kind : JobKind) (g : GroupNo) (x : Group) (epoch : BitVec 32) (s : State) :
    (newImageJob kind g x epoch s).kind = kind ∧ (newImageJob kind g x epoch s).group = g ∧
      (newImageJob kind g x epoch s).count = x.seqCount + 1 ∧ (newImageJob kind g x epoch s).phase ≠ .capture := by
  refine ⟨rfl, rfl, rfl, ?_⟩
  unfold newImageJob
  simp only
  split <;> nofun

/-- A COMMIT job created for a LIVE group, or for a SAFE one that recovers. -/
theorem Work.createCommit {i : Instr} {s : State} {g : GroupNo} {x : Group} {img : Image} (hx : s.group g = some x)
    (hk : x.record.kind = .output) (hs : x.state = .live ∨ x.state = .safe) (ha : x.armed = some img)
    (hc : x.committing = none) (epoch : BitVec 32) : Work i s (createCommit g { x with state := .live } img epoch s) :=
  .single (.commit g x img _ hx hk hs ha hc (newImageJob_fields .commit g { x with state := .live } epoch s))

/-- A SAFE job created for a group that is in SAFE with no job in flight. -/
theorem Work.createSafe {i : Instr} {s t : State} {g : GroupNo} {y : Group} (hw : Work i s (t.setGroup g y))
    (hk : y.record.kind = .output) (hs : y.state = .safe) (hc : y.committing = none) (epoch : BitVec 32) :
    Work i s (createSafe g y epoch t) := by
  have h := hw.tail (.safe g y (newImageJob .safe g y epoch t) (State.group_setGroup_same t g y) hk hs hc
    (newImageJob_fields .safe g y epoch t))
  rwa [State.setGroup_setGroup] at h

theorem Work.enterSafe {i : Instr} {s : State} {g : GroupNo} {x : Group} (hx : s.group g = some x)
    (hk : x.record.kind = .output) (hs : x.state = .live) (h0 : x.record.staleLimit ≠ 0)
    (hn : x.staleCount + 1 = x.record.staleLimit) (src : SourceNo) (epoch : BitVec 32) :
    Work i s (enterSafe g { x with staleCount := x.staleCount + 1 } src epoch s) := by
  have hmove : ∀ (e : EventRecord) (b : Bool), Work i s ((s.raise e).setGroup g
      { x with state := .safe, staleCount := x.staleCount + 1, pendingSafe := b }) := fun e b =>
    (Work.one (.raise e)).trans (Work.moves_setGroup (x := x) hx (.enterSafe b hk hs h0 hn))
  rcases enterSafe_cases g { x with staleCount := x.staleCount + 1 } src epoch s with ⟨-, e⟩ | ⟨-, -, e⟩ | ⟨-, hc, e⟩ <;> rw [e]
  · exact hmove _ x.pendingSafe
  · exact hmove _ true
  · exact Work.createSafe (hmove _ x.pendingSafe) hk rfl hc epoch

theorem Work.edgeLive {i : Instr} {s : State} {g : GroupNo} {x : Group} (hx : s.group g = some x)
    (hk : x.record.kind = .output) (hs : x.state = .live) (src : SourceNo) (epoch : BitVec 32) :
    Work i s (edgeLive g x src epoch s) := by
  rcases edgeLive_cases g x src epoch s with ⟨img, -, -, e⟩ | ⟨img, ha, hc, e⟩ | ⟨-, t, ht, h⟩
  · rw [e]; exact Work.edgeBehind hx src epoch
  · have h := Work.createCommit (i := i) hx hk (.inl hs) ha hc epoch
    rw [Group.state_live_eta hs] at h
    rw [e]; exact h
  · have hw : Work i s t ∧ t.group g = some x := by
      rcases ht with rfl | ⟨f, -, rfl⟩
      · exact ⟨.refl, hx⟩
      · exact ⟨.single (.raise _), hx⟩
    rcases h with ⟨-, e⟩ | ⟨h0, hn, e⟩ | ⟨h0, hn, e⟩ <;> rw [e]
    · exact hw.1
    · exact hw.1.trans (Work.moves_setGroup hw.2 (.stale hs h0 hn))
    · exact hw.1.trans (Work.enterSafe hw.2 hk hs h0 hn src epoch)

theorem Work.edgeSafe {i : Instr} {s : State} {g : GroupNo} {x : Group} (hx : s.group g = some x)
    (hk : x.record.kind = .output) (hs : x.state = .safe) (src : SourceNo) (epoch : BitVec 32) :
    Work i s (edgeSafe g x src epoch s) := by
  rcases edgeSafe_cases g x src epoch s with e | ⟨img, -, -, -, e⟩ | ⟨img, -, ha, hc, e⟩ <;> rw [e]
  · exact Work.edgeBehind hx src epoch
  · exact (Work.createCommit hx hk (.inr hs) ha hc epoch).raise _

theorem Work.edgeInput {i : Instr} {s : State} {g : GroupNo} {x : Group} (hx : s.group g = some x)
    (hk : x.record.kind = .input) (hs : x.state = .live) (src : SourceNo) (epoch : BitVec 32) :
    Work i s (edgeInput g x src epoch s) := by
  obtain ⟨y, t, hy, h⟩ := edgeInput_cases g x src epoch s
  have hw : Work i s (t.setGroup g y) ∧ y.record = x.record ∧ y.state = .live := by
    rcases hy with ⟨rfl, rfl⟩ | ⟨-, rfl, rfl⟩ | ⟨-, rfl, rfl⟩
    · exact ⟨Work.moves_setGroup hx (.countHold y.holdCount), rfl, hs⟩
    · exact ⟨Work.moves_setGroup hx (.countHold _), rfl, hs⟩
    · exact ⟨(Work.one (.raise _)).trans (Work.moves_setGroup hx (.swap _ hs)), by simp, by simp [hs]⟩
  obtain ⟨hw, hr, hl⟩ := hw
  rcases h with ⟨-, e⟩ | ⟨hc, e⟩ <;> rw [e]
  · exact hw.raise _
  · have hcap := hw.tail (.capture g y epoch (State.group_setGroup_same _ g y) (by rw [hr, hk]) hl hc)
    rwa [State.setGroup_setGroup] at hcap

theorem Work.edgeToGroup (i : Instr) (g : GroupNo) (src : SourceNo) (epoch : BitVec 32) (s : State) :
    Work i s (edgeToGroup g src epoch s) := by
  rcases edgeToGroup_cases g src epoch s with e | ⟨x, hx, ⟨hs, hk, e⟩ | ⟨hs, hk, e⟩ | ⟨hs, hk, e⟩⟩ <;> rw [e]
  · exact Work.edgeLive hx hk hs src epoch
  · exact Work.edgeSafe hx hk hs src epoch
  · exact Work.edgeInput hx hk hs src epoch

/-! ### The engine -/

theorem completeImageJob_of_absent {j : Job} {s : State} (h : ∀ x, s.group j.group = some x → x.record.kind = .input) :
    completeImageJob j s = s := by
  unfold completeImageJob
  split
  · rfl
  · next x hx => simp [h x hx]

/-- The end of an image job: it leaves, and its group takes the completion. -/
theorem Work.completeImageJob {i : Instr} {s : State} {j k : Job} {p : Option PortUse} (hl : Leaves s j false p)
    (hk : k.group = j.group ∧ k.count = j.count) :
    Work i s (completeImageJob k ((s.setPort p).setRunning none)) := by
  obtain ⟨hg, hn⟩ := hk
  by_cases hin : ∀ x, s.group j.group = some x → x.record.kind = .input
  · rw [completeImageJob_of_absent (fun x hx => hin x (by rw [← hg]; exact hx))]
    exact .single (.leave j false p hl hin)
  · push Not at hin
    obtain ⟨x, hx, hko⟩ := hin
    have hko : x.record.kind = .output := by cases h : x.record.kind <;> simp_all
    have hend := Work.one (Act.complete (i := i) j x p hl hx hko)
    have hx' : ((s.setPort p).setRunning none).group j.group = some x := hx
    unfold Sys2Proof.Machine.completeImageJob
    rw [hg, hn, hx']
    simp only
    split
    · next hki => exact absurd (hko.symm.trans hki) (by simp)
    · next _ hs =>
      rw [if_pos hs] at hend
      exact Work.raise (hend.trans (Work.setEdges _ _ _)) _
    · next _ hs =>
      rw [if_neg (by simp [hs])] at hend
      split
      · exact Work.createSafe (y := { x with seqCount := j.count, committing := none }) hend hko hs rfl _
      · exact hend
    · next _ hs =>
      rw [if_neg (by simp [hs])] at hend
      exact hend
    · next _ hs =>
      rw [if_neg (by simp [hs])] at hend
      exact hend

theorem Work.closeJob {i : Instr} {s : State} {j k : Job} {p : Option PortUse} (hl : Leaves s j false p)
    (hk : k.group = j.group ∧ k.count = j.count) : Work i s (closeJob k (s.setPort p)) := by
  unfold Sys2Proof.Machine.closeJob
  simp only
  split
  · exact (Work.one (.raise _)).trans (Work.completeImageJob (s := s.raise _) hl hk)
  · exact Work.completeImageJob hl hk

theorem Work.endInputDrain {i : Instr} {s : State} {j : Job} {x : Group} {p : Option PortUse} (hl : Leaves s j true p)
    (hx : s.group j.group = some x) (hk : x.record.kind = .input) (hs : x.state = .draining) :
    Work i s (endInputDrain j.group x ((s.setPort p).setRunning none)) :=
  Work.raise ((Work.one (.drained j x p hl hx hk hs)).trans (Work.setEdges _ _ _)) _

/-- A claim on an input group leaves the state alone when the slot holds none. -/
theorem State.onInput_of_absent {g : GroupNo} {s : State} (k : Group → State)
    (h : ∀ x, s.group g = some x → x.record.kind = .output) : s.onInput g k = s := by
  unfold State.onInput
  split
  · rfl
  · next x hx => simp [h x hx]

theorem State.onInput_of_input {g : GroupNo} {s : State} {x : Group} (k : Group → State) (hx : s.group g = some x)
    (hk : x.record.kind = .input) : s.onInput g k = k x := by
  simp [State.onInput, hx, hk]

/-- A slot holds an input group, or none. -/
theorem input_or_absent (s : State) (g : GroupNo) :
    (∃ x, s.group g = some x ∧ x.record.kind = .input) ∨ ∀ x, s.group g = some x → x.record.kind = .output := by
  rcases hx : s.group g with - | x
  · exact .inr fun x hx => by cases hx
  · cases hk : x.record.kind
    · exact .inr fun y hy => by cases hy; exact hk
    · exact .inl ⟨x, rfl, hk⟩

theorem Work.completeCapture {i : Instr} {s : State} {j : Job} {p : Option PortUse} (hl : Leaves s j true p)
    (hn : ∀ x, s.group j.group = some x → x.record.length ≤ j.progress) :
    Work i s (completeCapture j ((s.setPort p).setRunning none)) := by
  unfold Sys2Proof.Machine.completeCapture
  rcases input_or_absent s j.group with ⟨x, hx, hk⟩ | ho
  · rw [State.onInput_of_input (s := (s.setPort p).setRunning none) _ hx hk]
    have hcap := fun front back hs hb => Work.one (Act.captured (i := i) j x front back p hl hx hk hs hb)
    simp only
    split
    · next hs => exact Work.endInputDrain hl hx hk hs
    · next hs =>
      split
      · next hh => exact hcap _ _ (by simp [hs]) (.inr ⟨hs, hn x hx, .inl ⟨hh, rfl, rfl⟩⟩)
      · next hh => exact hcap _ _ (by simp [hs]) (.inr ⟨hs, hn x hx, .inr ⟨by simpa using hh, rfl, rfl⟩⟩)
    · next hs => exact hcap x.front .idle (by simp [hs]) (.inl ⟨rfl, rfl⟩)
    · next hs => exact hcap x.front .idle (by simp [hs]) (.inl ⟨rfl, rfl⟩)
  · rw [State.onInput_of_absent (s := (s.setPort p).setRunning none) _ ho]
    exact .single (.leave j true p hl ho)

theorem Work.failCapture {i : Instr} {s : State} {j : Job} {p : Option PortUse} (hl : Leaves s j true p) :
    Work i s (failCapture j ((s.setPort p).setRunning none)) := by
  unfold Sys2Proof.Machine.failCapture
  rcases input_or_absent s j.group with ⟨x, hx, hk⟩ | ho
  · rw [State.onInput_of_input (s := (s.setPort p).setRunning none) _ hx hk]
    have hcap := fun hs => Work.one (Act.captured (i := i) j x x.front .idle p hl hx hk hs (.inl ⟨rfl, rfl⟩))
    split
    · next hs => exact Work.endInputDrain hl hx hk hs
    · next hs => exact hcap (by simp [hs])
    · next hs => exact hcap (by simp [hs])
    · next hs => exact hcap (by simp [hs])
  · rw [State.onInput_of_absent (s := (s.setPort p).setRunning none) _ ho]
    exact .single (.leave j true p hl ho)

theorem Work.abortCapture {i : Instr} {s : State} {j : Job} {p : Option PortUse} (hl : Leaves s j true p) :
    Work i s (abortCapture j (s.setPort p)) :=
  (Work.one (.raise _)).trans (Work.failCapture (s := s.raise _) hl)

theorem Work.dispatch {i : Instr} {s : State} {j : Job} {rest : List Job} (hb : s.engineBusy = false)
    (hr : s.engine.running = none) (hq : s.engine.queue = j :: rest) : Work i s (dispatch j rest s) := by
  have hplain := fun hk => Work.one (Act.dispatch (i := i) j rest hb hr hq hk)
  unfold Sys2Proof.Machine.dispatch
  simp only
  rcases hj : j.kind with _ | _ | _ <;> simp only
  case capture =>
    unfold captureStart
    rcases input_or_absent s j.group with ⟨x, hx, hk⟩ | ho
    · rw [State.onInput_of_input (s := s.setEngine { s.engine with queue := rest, running := some j }) _ hx hk]
      exact .single (.dispatchCapture j rest x hb hr hq hj hx hk)
    · rw [State.onInput_of_absent (s := s.setEngine { s.engine with queue := rest, running := some j }) _ ho]
      exact hplain fun _ => ho
  all_goals exact hplain fun h => absurd h (by simp [hj])

theorem Work.endPhase {i : Instr} {s : State} {j : Job} (hb : s.engineBusy = false) (hr : s.engine.running = some j)
    (hn : (s.group j.group).bind (nextRequest j) = none) : Work i s (endPhase j s) := by
  have hl : ∀ c : Bool, (j.phase = .capture ↔ c = true) → Leaves s j c s.port := fun c hc => ⟨hr, .inl ⟨hb, rfl, hc⟩⟩
  unfold Sys2Proof.Machine.endPhase
  rcases hp : j.phase with _ | _ | _ | _ <;> simp only
  case release =>
    unfold endRelease
    simp only
    split
    · exact .single (.turn j _ _ hb hr hp rfl (.inl rfl))
    · exact .single (.turn j _ _ hb hr hp rfl (.inr rfl))
  case capture =>
    refine Work.completeCapture (hl true (by simp [hp])) fun x hx => ?_
    rw [hx] at hn
    simpa [nextRequest, hp] using hn
  all_goals exact Work.closeJob (p := s.port) (hl false (by simp [hp])) ⟨rfl, rfl⟩

/-! ### What the engine's going on leaves alone -/

@[simp] theorem completeImageJob_port (j : Job) (s : State) : (completeImageJob j s).port = s.port := by
  rcases completeImageJob_cases j s with e | ⟨x, y, t, -, -, -, rfl, ⟨-, e⟩ | ⟨-, -, e⟩ | ⟨-, e⟩⟩ <;> rw [e] <;> rfl

@[simp] theorem completeCapture_port (j : Job) (s : State) : (completeCapture j s).port = s.port := by
  rcases completeCapture_cases j s with e | ⟨x, -, -, ⟨-, e⟩ | ⟨-, f, b, e⟩⟩ <;> rw [e] <;> rfl

@[simp] theorem captureStart_port (g : GroupNo) (s : State) : (captureStart g s).port = s.port := by
  unfold captureStart
  rcases State.onInput_cases g s (fun x => s.setGroup g { x with back := .filling [] }) with e | ⟨x, -, -, e⟩
  · rw [e]
  · rw [e]; rfl

@[simp] theorem dispatch_port (j : Job) (rest : List Job) (s : State) : (dispatch j rest s).port = s.port := by
  unfold dispatch
  rcases j.kind with _ | _ | _ <;> simp

@[simp] theorem endPhase_port (j : Job) (s : State) : (endPhase j s).port = s.port := by
  unfold endPhase closeJob endRelease
  split
  · simp only
    split <;> rfl
  · rw [completeImageJob_port]
    split <;> rfl
  · rw [completeImageJob_port]
    split <;> rfl
  · exact completeCapture_port _ _

theorem Work.pumpEngine {i : Instr} {s : State} (hb : s.engineBusy = false) (n : Nat) : Work i s (pumpEngine n s) := by
  have hbusy : ∀ t u : State, t.port = u.port → t.engineBusy = false → u.engineBusy = false := fun t u h ht => by
    rw [State.engineBusy, ← h]; exact ht
  refine (pumpEngine_induct (P := fun t => Work i s t ∧ t.engineBusy = false) ?_ ?_ n s ⟨.refl, hb⟩).1
  · exact fun t j rest ⟨hw, ht⟩ hr hq => ⟨hw.trans (Work.dispatch ht hr hq), hbusy t _ (by simp) ht⟩
  · exact fun t j ⟨hw, ht⟩ hr hn => ⟨hw.trans (Work.endPhase ht hr hn), hbusy t _ (by simp) ht⟩

theorem hostAsk_purpose {s : State} {v : PortUse} (h : s.hostAsk = some v) : v.purpose = .run ∨ v.purpose = .layered := by
  unfold State.hostAsk at h
  split at h
  · cases h
  · obtain ⟨a, -, ha⟩ := Option.bind_eq_some_iff.mp h
    split at ha
    · cases ha
    · cases ha; exact .inl rfl
    · cases ha; exact .inr rfl

theorem Work.arbitrate (i : Instr) (s : State) : Work i s (arbitrate s) := by
  rcases arbitrate_cases s with e | ⟨u, n, hp, hu, hn, h0, e⟩ | ⟨v, hp, hv, e⟩ <;> rw [e]
  · exact .single (.grantEngine u n hp hu (h0.imp id fun h => ⟨h, hn⟩))
  · exact .single (.grantHost v hp (hostAsk_purpose hv))

theorem Work.joinHost (i : Instr) (s : State) : Work i s (joinHost s) := by
  rcases joinHost_cases s with e | ⟨a, h, -, -, -, -, -, -, -, -, e⟩ <;> rw [e]
  exact Work.setActive _ _ _

theorem Work.settle (i : Instr) (s : State) : Work i s (settle s) := by
  unfold Sys2Proof.Machine.settle
  refine Relation.ReflTransGen.trans ?_ ((Work.joinHost i _).trans (Work.arbitrate i _))
  split
  · exact .refl
  · next h => exact Work.pumpEngine (by simp at h; exact h.1) _

/-! ### The host path -/

theorem Work.takeLayered (i : Instr) (a : ActiveRequest) (v : Word × Lanes) (s : State) : Work i s (takeLayered a v s) := by
  unfold Sys2Proof.Machine.takeLayered
  split <;> exact Work.setActive _ _ _

theorem Work.takeWord {i : Instr} {s : State} (a : ActiveRequest) (w : PortWord) {c : WordClass} {addr : WordAddr}
    (hc : classify s addr = c) : Work i s (takeWord a w c s) := by
  unfold Sys2Proof.Machine.takeWord
  split
  · next g off _ =>
    obtain ⟨x, hx, hk, hs, ho⟩ := classify_staged (.inl hc)
    exact (Work.stageWord w hx hk hs ho).trans (Work.setActive _ _ _)
  · next g off _ =>
    obtain ⟨x, hx, hk, hs, ho⟩ := classify_staged (.inr hc)
    exact ((Work.stageWord w hx hk hs ho).trans (Work.sealImage i g _)).trans (Work.setActive _ _ _)
  · exact Work.setActive _ _ _
  · exact Work.setActive _ _ _
  · next g off _ =>
    obtain ⟨x, hx, -, hs⟩ := classify_stamp hc
    exact (Work.stampWrite w hx hs).trans (Work.setActive _ _ _)
  · exact Work.takeLayered _ _ _ _
  · exact Work.takeLayered _ _ _ _
  · exact Work.takeLayered _ _ _ _
  · exact Work.setActive _ _ _
  · exact Work.setActive _ _ _
  all_goals exact .refl

theorem Work.takeWords (i : Instr) (n : Nat) (s : State) : Work i s (takeWords n s) := by
  refine takeWords_induct (P := fun t => Work i s t) ?_ ?_ ?_ ?_ n s .refl
  · exact fun t a w c hw _ _ _ _ hc _ _ => hw.trans (Work.takeWord a w hc.symm)
  · exact fun t a w hw _ _ _ _ _ => hw.trans (Work.setActive _ _ _)
  · exact fun t a hw _ _ _ _ => hw.trans (Work.setActive _ _ _)
  · exact fun t a hw _ _ _ _ _ => hw.trans (Work.respondHost _ _ _)

theorem Work.acceptRequest (i : Instr) (r : HostRequest) (s : State) : Work i s (acceptRequest r s) := by
  unfold Sys2Proof.Machine.acceptRequest
  split
  · exact Work.respondHost _ _ _
  · exact Work.setActive _ _ _

theorem Work.runHost (i : Instr) (s : State) : Work i s (runHost s) :=
  runHost_induct (P := fun t => Work i s t) (fun t hw => hw.trans (Work.takeWords i _ t))
    (fun _t r _rest hw _ _ => (hw.trans (Work.setHost i _ _)).trans (Work.acceptRequest i r _)) .refl

/-! ### Answers and the reset -/

theorem Work.endReset (i : Instr) (tag : Byte) (s : State) : Work i s (endReset tag s) :=
  (Work.reply i s .ok tag).trans (Work.setResetting i _ none)

theorem Work.continueReset (i : Instr) (r : Resetting) (s : State) : Work i s (continueReset r s) := by
  unfold Sys2Proof.Machine.continueReset
  split
  · exact ((Work.endReset i _ s).trans (Work.runHost i _)).trans (Work.settle i _)
  · exact Work.arbitrate i s

theorem Work.abandon {i : Instr} {s : State} (r : Resetting) (hp : s.port = none) : Work i s (abandon r s) :=
  ((Work.one (.abandon hp)).trans (Work.setResetting i _ _)).trans (Work.continueReset i _ _)

theorem Work.afterAnswer {i : Instr} {s : State} (hp : s.resetting ≠ none → s.port = none) : Work i s (afterAnswer s) := by
  rcases afterAnswer_cases s with ⟨-, e⟩ | ⟨r, hr, ⟨-, e⟩ | ⟨-, e⟩⟩ <;> rw [e]
  · exact Work.settle i s
  · exact Work.abandon r (hp (by simp [hr]))

/-- While RESET_DEVICE executes the host path stands still (R69). -/
theorem runHost_of_resetting {s : State} (h : s.resetting ≠ none) : runHost s = s := by
  unfold runHost
  rw [if_pos (by simpa [Option.isSome_iff_ne_none] using h)]

theorem Work.tick (i : Instr) (s : State) : Work i s (tick s) := by
  rcases tick_cases s with e | ⟨a, -, -, -, -, e⟩ <;> rw [e]
  exact ((Work.setActive i s _).trans (Work.runHost i _)).trans (Work.settle i _)

end Sys2Proof.Machine
end

section
/-! SUPPORT. Every command is a run of acts: source by source, answer by answer and frame by frame. -/

namespace Sys2Proof.Machine

open Sys2Proof.Safety

/-! ### Sources and deliveries -/

theorem Work.sources {i : Instr} (hi : movesSources i = true) (s : State) (src : Vector Source 4) (es : List Edge) :
    Work i s { s with sources := src, edges := es } := .single (.loose s.host es s.resetting s.pending src (.inr hi))

theorem Work.setSource {i : Instr} (hi : movesSources i = true) (s : State) (n : SourceNo) (x : Source) :
    Work i s (s.setSource n x) := Work.sources hi s _ _

theorem Work.emitEdge {i : Instr} (hi : movesSources i = true) (n : SourceNo) (s : State) : Work i s (emitEdge n s) :=
  Work.sources hi s _ _

theorem Work.emitOrSkip {i : Instr} (hi : movesSources i = true) (n : SourceNo) (s : State) : Work i s (emitOrSkip n s) := by
  rcases emitOrSkip_cases n s with ⟨-, e⟩ | ⟨-, e⟩ <;> rw [e]
  · exact Work.setSource hi _ _ _
  · exact Work.emitEdge hi n s

/-- A source takes new values, and then a cause emits its edge or consumes its skip. -/
theorem Work.setSource_emitOrSkip {i : Instr} (hi : movesSources i = true) (s : State) (n : SourceNo) (x : Source) :
    Work i s (Machine.emitOrSkip n (s.setSource n x)) := (Work.setSource hi s n x).trans (Work.emitOrSkip hi n _)

theorem Work.timerExpired {i : Instr} (hi : movesSources i = true) (n : SourceNo) (s : State) :
    Work i s (timerExpired n s) := by
  unfold Sys2Proof.Machine.timerExpired
  simp only
  split
  · split
    · exact Work.setSource_emitOrSkip hi _ _ _
    · exact .refl
    · exact .refl
  · exact .refl

theorem Work.syncAtSource {i : Instr} (hi : movesSources i = true) (n : SourceNo) (watch : Nat) (s : State) :
    Work i s (syncAtSource n watch s) := by
  unfold Sys2Proof.Machine.syncAtSource
  simp only
  split
  · exact Work.setSource_emitOrSkip hi _ _ _
  · exact Work.setSource_emitOrSkip hi _ _ _
  · split
    · exact Work.setSource hi _ _ _
    · exact Work.setSource_emitOrSkip hi _ _ _
  · exact (Work.setSource_emitOrSkip hi _ _ _).raise _

theorem Work.observeSync {i : Instr} (hi : movesSources i = true) (line : SyncLine) (n : SourceNo) (s : State) :
    Work i s (observeSync line n s) := by
  unfold Sys2Proof.Machine.observeSync
  simp only
  split
  · split
    · split
      · exact Work.syncAtSource hi _ _ _
      · exact .refl
    · exact .refl
    · exact .refl
  · exact .refl

theorem Work.enterLost {i : Instr} (hi : movesSources i = true) (n : SourceNo) (s : State) : Work i s (enterLost n s) :=
  Work.raise (Work.setSource hi _ _ _) _

theorem Work.standInEdge {i : Instr} (hi : movesSources i = true) (n : SourceNo) (h : Byte) (p g : Nat) (s : State) :
    Work i s (standInEdge n h p g s) := Work.setSource_emitOrSkip hi _ _ _

theorem Work.watchExpired {i : Instr} (hi : movesSources i = true) (n : SourceNo) (s : State) :
    Work i s (watchExpired n s) := by
  unfold Sys2Proof.Machine.watchExpired
  simp only
  split
  · split
    · split
      · split
        · exact Work.enterLost hi n s
        · exact (Work.standInEdge hi _ _ _ _ _).raise _
      · exact .refl
    · exact .refl
    · exact .refl
  · exact .refl

theorem Work.standInExpired {i : Instr} (hi : movesSources i = true) (n : SourceNo) (s : State) :
    Work i s (standInExpired n s) := by
  unfold Sys2Proof.Machine.standInExpired
  simp only
  split
  · split
    · split
      · split
        · exact Work.standInEdge hi _ _ _ _ _
        · exact Work.enterLost hi n s
      · exact .refl
    · exact .refl
    · exact .refl
  · exact .refl

theorem Work.parentEdge {i : Instr} (hi : movesSources i = true) (c : SourceNo) (s : State) : Work i s (parentEdge c s) := by
  rcases parentEdge_cases c s with e | ⟨r, p, d, -, -, -, ⟨-, e⟩ | ⟨-, e⟩⟩ <;> rw [e]
  · exact Work.setSource hi _ _ _
  · exact Work.setSource_emitOrSkip hi _ _ _

theorem Work.deliverToGroup (i : Instr) (n : SourceNo) (g : GroupNo) (s : State) : Work i s (deliverToGroup n g s) := by
  rcases deliverToGroup_cases n g s with e | ⟨ep, void, rest, -, ⟨-, e⟩ | ⟨-, e⟩⟩ <;> rw [e]
  · exact Work.setEdges _ _ _
  · exact ((Work.setEdges i _ _).trans (Work.edgeToGroup i g n ep _)).trans (Work.settle i _)

theorem Work.deliverToChild {i : Instr} (hi : movesSources i = true) (n c : SourceNo) (s : State) :
    Work i s (deliverToChild n c s) := by
  unfold Sys2Proof.Machine.deliverToChild
  split
  · exact .refl
  · split
    · exact Work.setEdges _ _ _
    · exact (Work.setEdges i s _).trans (Work.parentEdge hi c _)

theorem Work.takeAllEdges {i : Instr} (hi : movesSources i = true) (s : State) : Work i s (takeAllEdges s) :=
  takeAllEdges_induct (P := fun t => Work i s t) (fun _ _ hw => hw.trans (Work.setEdges _ _ _))
    (fun _ g n ep hw => (hw.trans (Work.edgeToGroup i g n ep _)).trans (Work.settle i _))
    (fun _ c hw => hw.trans (Work.parentEdge hi c _)) .refl

/-! ### Source commands -/

theorem Work.withSource {i : Instr} (tag n : Byte) {s : State} {k : SourceNo → State} (hk : ∀ m, Work i s (k m)) :
    Work i s (withSource tag n s k) := by
  unfold Sys2Proof.Machine.withSource
  split
  · exact hk _
  · exact Work.reply _ _ _ _

theorem Work.withGroup {i : Instr} (tag n : Byte) {s : State} {k : GroupNo → State} (hk : ∀ g, Work i s (k g)) :
    Work i s (withGroup tag n s k) := by
  unfold Sys2Proof.Machine.withGroup
  split
  · exact hk _
  · exact Work.reply _ _ _ _

/-- A source takes new values, the parent edges offered to it are void, and the command is answered. -/
theorem Work.setSource_void {i : Instr} (hi : movesSources i = true) (s : State) (n : SourceNo) (x : Source) (tag : Byte) :
    Work i s (((s.setSource n x).voidChild n).respond .ok tag []) :=
  ((Work.setSource hi s n x).trans (Work.setEdges i _ _)).trans (Work.reply i _ _ _)

theorem Work.defineSource {i : Instr} (hi : movesSources i = true) (tag : Byte) (f : SourceFields) (s : State) :
    Work i s (defineSource tag f s) := by
  refine Work.withSource tag _ fun n => ?_
  split
  · exact Work.reply _ _ _ _
  · simp only
    split
    · split
      · exact Work.setSource_void hi _ _ _ _
      · exact Work.reply _ _ _ _
    · exact Work.setSource_void hi _ _ _ _

theorem Work.startSource {i : Instr} (hi : movesSources i = true) (tag n : Byte) (s : State) :
    Work i s (startSource tag n s) := by
  refine Work.withSource tag _ fun m => ?_
  simp only
  split
  · exact (Work.setSource hi _ _ _).trans (Work.reply _ _ _ _)
  · exact Work.reply _ _ _ _

theorem Work.stopSource {i : Instr} (hi : movesSources i = true) (tag n : Byte) (s : State) :
    Work i s (stopSource tag n s) := by
  refine Work.withSource tag _ fun m => ?_
  simp only
  split
  · exact Work.setSource_void hi _ _ _ _
  · exact Work.reply _ _ _ _

theorem Work.skipEdge {i : Instr} (hi : movesSources i = true) (tag n cancel : Byte) (s : State) :
    Work i s (skipEdge tag n cancel s) := by
  refine Work.withSource tag _ fun m => ?_
  simp only
  split
  · split
    · exact (Work.setSource hi _ _ _).trans (Work.reply _ _ _ _)
    · exact Work.reply _ _ _ _
  · exact Work.reply _ _ _ _

theorem Work.insertEdge {i : Instr} (hi : movesSources i = true) (tag n : Byte) (s : State) :
    Work i s (insertEdge tag n s) := by
  refine Work.withSource tag _ fun m => ?_
  simp only
  split
  · exact ((Work.setSource hi _ _ _).trans (Work.emitEdge hi _ _)).trans (Work.reply _ _ _ _)
  · exact Work.reply _ _ _ _

/-! ### Reports -/

theorem bytes16_length (x : BitVec 16) : (bytes16 x).length = 2 := rfl
theorem bytes32_length (x : BitVec 32) : (bytes32 x).length = 4 := rfl

theorem EventRecord.bytes_length (e : EventRecord) : e.bytes.length = 9 := rfl

theorem Work.readSource (i : Instr) (tag n : Byte) (s : State) : Work i s (readSource tag n s) :=
  Work.withSource tag n fun m => Work.respond i s .ok tag (s.source m).report (by
    simp [Source.report, bytes32_length]) (fun h => absurd rfl h)

theorem groupReport_length (o : Option Group) : (groupReport o).length = 30 := by
  rcases o with - | x
  · rfl
  · cases hk : x.record.kind
    · rw [groupReport_of_output hk]; rfl
    · rw [groupReport_of_input hk]; rfl

theorem Work.readGroup (i : Instr) (tag n : Byte) (s : State) : Work i s (readGroup tag n s) :=
  Work.withGroup tag n fun g => Work.respond i s .ok tag (groupReport (s.group g)) (by
    rw [groupReport_length]; decide) (fun h => absurd rfl h)

theorem Work.readDevice (i : Instr) (tag : Byte) (s : State) : Work i s (readDevice tag s) :=
  (Work.respond i s .ok tag s.deviceReport (by simp [State.deviceReport, numBytes16, bytes16_length])
    (fun h => absurd rfl h)).trans (.single (.link _ (.inl rfl) (.inl rfl)))

theorem Work.setEventMask (i : Instr) (tag : Byte) (m : BitVec 16) (s : State) : Work i s (setEventMask tag m s) :=
  (Work.one (.mask m)).trans (Work.reply _ _ _ _)

/-- A READ_EVENTS of at most 25 records reports at most 228 bytes (R197, R202). -/
theorem report_length {q : EventQueue} {n : Nat} (h : n ≤ 25) : (q.report n).length ≤ 228 := by
  have hsum : ∀ l : List EventRecord, (l.flatMap EventRecord.bytes).length = 9 * l.length := by
    intro l
    induction l with
    | nil => rfl
    | cons e l ih => simp only [List.flatMap_cons, List.length_append, ih, EventRecord.bytes_length, List.length_cons]; omega
  have hlen : (q.records.take n).length ≤ 25 := by simp only [List.length_take]; omega
  simp only [EventQueue.report, List.length_append, hsum, bytes16_length, List.length_singleton]
  omega

theorem Work.readEvents (i : Instr) (tag n : Byte) (s : State) : Work i s (readEvents tag n s) := by
  unfold Sys2Proof.Machine.readEvents
  split
  · exact Work.reply _ _ _ _
  · next h =>
    exact (Work.one (.remove _)).trans (Work.respond i _ .ok tag _
      (report_length (by simp only [Config.maxRecords] at h; omega)) (fun h => absurd rfl h))

/-! ### Group commands -/

theorem Work.defineGroup (tag : Byte) (f : GroupFields) (s : State) :
    Work (.defineGroup tag f) s (defineGroup tag f s) := by
  refine Work.withGroup tag _ fun g => ?_
  split
  · next hd =>
    split
    · next hv => exact (Work.one (.define g tag f rfl hd hv)).trans (Work.reply _ _ _ _)
    · exact Work.reply _ _ _ _
  · exact Work.reply _ _ _ _

theorem Group.state_of_not_enabled {x : Group} (h : ¬ x.enabled = true) : x.state = .disabled := by
  simpa [Group.enabled] using h

theorem Work.deleteGroup (tag n : Byte) (s : State) : Work (.deleteGroup tag n) s (deleteGroup tag n s) := by
  refine Work.withGroup tag _ fun g => ?_
  split
  · next x hx =>
    split
    · exact Work.reply _ _ _ _
    · next he =>
      exact (Work.one (.delete g x tag n rfl hx (Group.state_of_not_enabled he))).trans (Work.reply _ _ _ _)
  · exact Work.reply _ _ _ _

theorem Work.withdrawRun (i : Instr) (r : GroupRecord) (s : State) : Work i s (withdrawRun r s) := by
  rcases withdrawRun_cases r s with e | ⟨a, k, -, -, -, -, e⟩ <;> rw [e]
  exact ((Work.setActive i s _).trans (Work.runHost i _)).trans (Work.settle i _)

theorem Work.enableGroup (tag n : Byte) (s : State) : Work (.enableGroup tag n) s (enableGroup tag n s) := by
  refine Work.withGroup tag _ fun g => ?_
  split
  · next x hx =>
    split
    · exact Work.reply _ _ _ _
    · next he =>
      have hs := Group.state_of_not_enabled he
      split
      · next hk =>
        exact ((Work.one (.enableOutput g x hx hk hs ⟨tag, n, rfl⟩)).trans (Work.reply _ _ _ _)).trans (Work.withdrawRun _ _ _)
      · next hk =>
        split
        · next hw => exact (Work.one (.enableInput g x hx hk hs hw)).trans (Work.reply _ _ _ _)
        · exact Work.reply _ _ _ _
  · exact Work.reply _ _ _ _

theorem Work.disableOutput {i : Instr} {s : State} {g : GroupNo} {x : Group} (tag : Byte) (hx : s.group g = some x)
    (hk : x.record.kind = .output) (hs : x.state = .live ∨ x.state = .safe) : Work i s (disableOutput tag g x s) := by
  unfold Sys2Proof.Machine.disableOutput
  simp only
  split
  · exact (Work.moves hx (.drainOutput hk hs)).trans (Work.respond i _ _ _ _ (Nat.zero_le _) (fun _ => rfl))
  · next hc =>
    exact ((Work.one (.disableOutput g x hx hk hs (by simpa [Group.jobInFlight] using hc))).trans
      (Work.setEdges _ _ _)).trans (Work.reply _ _ _ _)

theorem Work.disableInput {i : Instr} {s : State} {g : GroupNo} {x : Group} (tag : Byte) (hx : s.group g = some x)
    (hk : x.record.kind = .input) (hs : x.state = .live ∨ x.state = .safe) : Work i s (disableInput tag g x s) := by
  unfold Sys2Proof.Machine.disableInput
  split
  · refine (Work.moves_setGroup hx (.drainInput _ hk hs ?_)).trans
      (Work.respond i _ _ _ _ (Nat.zero_le _) (fun _ => rfl))
    rcases hb : x.back with _ | ws | b
    · exact .inr ⟨rfl, rfl⟩
    · exact .inr ⟨rfl, rfl⟩
    · exact .inl ⟨rfl, rfl⟩
  · next hc =>
    exact ((Work.one (.disableInput g x hx hk hs (by simpa using hc))).trans
      (Work.setEdges _ _ _)).trans (Work.reply _ _ _ _)

theorem Work.disableGroup (i : Instr) (tag n : Byte) (s : State) : Work i s (disableGroup tag n s) := by
  refine Work.withGroup tag _ fun g => ?_
  split
  · next x hx =>
    split
    · exact Work.reply _ _ _ _
    · exact Work.reply _ _ _ _
    · next hs hk => exact Work.disableOutput tag hx hk (.inl hs)
    · next hs hk => exact Work.disableOutput tag hx hk (.inr hs)
    · next hs hk => exact Work.disableInput tag hx hk (.inl hs)
    · next hs hk => exact Work.disableInput tag hx hk (.inr hs)
  · exact Work.reply _ _ _ _

theorem Work.resumeGroup (i : Instr) (tag n : Byte) (s : State) : Work i s (resumeGroup tag n s) := by
  refine Work.withGroup tag _ fun g => ?_
  split
  · next x hx =>
    split
    · next h => exact (Work.moves_setGroup hx (.resume h.2 h.1)).trans (Work.reply _ _ _ _)
    · exact Work.reply _ _ _ _
  · exact Work.reply _ _ _ _

theorem Work.loadSafe (tag n first : Byte) (loads : List SafeEntry) (s : State) :
    Work (.loadSafe tag n first loads) s (loadSafe tag n first loads s) := by
  refine Work.withGroup tag _ fun g => ?_
  split
  · unfold loadSafeInto
    split
    · exact Work.reply _ _ _ _
    · next x hx =>
      split
      · exact Work.reply _ _ _ _
      · split
        · exact Work.reply _ _ _ _
        · next he =>
          split
          · exact Work.reply _ _ _ _
          · next hl =>
            split
            · next hf =>
              exact (Work.one (.loadSafe g x tag n first loads rfl hx (Group.state_of_not_enabled he)
                (by simpa using hl) hf)).trans (Work.reply _ _ _ _)
            · exact Work.reply _ _ _ _
  · exact Work.reply _ _ _ _

/-! ### The reset -/

theorem Work.beginReset {i : Instr} (hi : movesSources i = true) (tag : Byte) (s : State) : Work i s (beginReset tag s) :=
  ((Work.reply i s .notReady tag).trans (Work.one .clear)).trans
    (.single (.loose _ s.edges _ s.pending _ (.inr hi)))

theorem Work.resetDevice {i : Instr} (hi : movesSources i = true) (tag : Byte) (s : State) :
    Work i s (resetDevice tag s) := by
  have hb := (Work.takeAllEdges hi s).trans (Work.beginReset hi tag _)
  unfold Sys2Proof.Machine.resetDevice
  simp only
  split
  · exact hb
  · next hp => exact hb.trans (Work.abandon _ (by simpa using hp))

end Sys2Proof.Machine
end

section
/-! SUPPORT. Every command that answers a next state leaves the state alone, is one of the two resets of the pins, or is a run of
acts; and what every act keeps, every step keeps. -/

namespace Sys2Proof.Machine

open Sys2Proof.Safety

/-! ### What the host path leaves alone -/

/-- Only the groups, the stage pool, the event queue and the host path itself may differ. -/
def OnlyHost (s t : State) : Prop :=
  t = { s with groups := t.groups, freeStage := t.freeStage, events := t.events, host := t.host }

theorem OnlyHost.refl (s : State) : OnlyHost s s := rfl

theorem OnlyHost.trans {s t u : State} (h : OnlyHost s t) (h' : OnlyHost t u) : OnlyHost s u :=
  Eq.trans h' (congrArg (fun v : State =>
    { v with groups := u.groups, freeStage := u.freeStage, events := u.events, host := u.host }) h)

theorem OnlyHost.eq {s t : State} (h : OnlyHost s t) :
    t = { s with groups := t.groups, freeStage := t.freeStage, events := t.events, host := t.host } := h

theorem OnlyHost.port {s t : State} (h : OnlyHost s t) : t.port = s.port := (congrArg State.port h.eq :)
theorem OnlyHost.resetting {s t : State} (h : OnlyHost s t) : t.resetting = s.resetting := (congrArg State.resetting h.eq :)
theorem OnlyHost.resetAsserted {s t : State} (h : OnlyHost s t) : t.resetAsserted = s.resetAsserted :=
  (congrArg State.resetAsserted h.eq :)
theorem OnlyHost.engine {s t : State} (h : OnlyHost s t) : t.engine = s.engine := (congrArg State.engine h.eq :)
theorem OnlyHost.sources {s t : State} (h : OnlyHost s t) : t.sources = s.sources := (congrArg State.sources h.eq :)
theorem OnlyHost.streak {s t : State} (h : OnlyHost s t) : t.streak = s.streak := (congrArg State.streak h.eq :)

theorem stageWord_onlyHost (g : GroupNo) (off : Byte) (w : PortWord) (s : State) : OnlyHost s (stageWord g off w s).2 := by
  rcases stageWord_cases g off w s with e | ⟨x, f, -, -, -, ⟨-, e⟩ | ⟨-, -, e⟩ | ⟨-, -, e⟩⟩ <;> rw [e]
  · rfl
  · rfl
  · show OnlyHost s (refuseForPool g x f off s)
    unfold refuseForPool
    simp only
    split <;> rfl
  · rfl

theorem sealImage_onlyHost (g : GroupNo) (s : State) : OnlyHost s (sealImage g s) := by
  rcases sealImage_cases g s with e | ⟨x, f, -, -, ⟨-, e⟩ | ⟨-, -, e⟩ | ⟨a, -, -, -, e⟩ | ⟨a, -, -, -, e⟩⟩ <;> rw [e] <;> rfl

theorem stampWrite_onlyHost (g : GroupNo) (w : PortWord) (s : State) : OnlyHost s (stampWrite g w s) := by
  rcases stampWrite_cases g w s with e | ⟨x, -, e | e⟩ <;> rw [e] <;> rfl

theorem setHost_onlyHost (h : HostPath) (s : State) : OnlyHost s (s.setHost h) := rfl

theorem setActive_onlyHost (a : Option ActiveRequest) (s : State) : OnlyHost s (s.setActive a) := rfl

theorem takeWord_onlyHost (a : ActiveRequest) (w : PortWord) (c : WordClass) (s : State) : OnlyHost s (takeWord a w c s) := by
  have hl : ∀ v, OnlyHost s (takeLayered a v s) := by
    intro v; unfold takeLayered; split <;> rfl
  unfold takeWord
  split
  · exact (stageWord_onlyHost _ _ w s).trans (setActive_onlyHost _ _)
  · exact ((stageWord_onlyHost _ _ w s).trans (sealImage_onlyHost _ _)).trans (setActive_onlyHost _ _)
  · rfl
  · rfl
  · exact (stampWrite_onlyHost _ w s).trans (setActive_onlyHost _ _)
  · exact hl _
  · exact hl _
  · exact hl _
  all_goals rfl

theorem takeWords_onlyHost (n : Nat) (s : State) : OnlyHost s (takeWords n s) := by
  refine takeWords_induct (P := OnlyHost s) ?_ ?_ ?_ ?_ n s (.refl s)
  · exact fun t a w c h _ _ _ _ _ _ _ => h.trans (takeWord_onlyHost a w c t)
  · exact fun t a w h _ _ _ _ _ => h.trans (setActive_onlyHost _ t)
  · exact fun t a h _ _ _ _ => h.trans (setActive_onlyHost _ t)
  · exact fun t a h _ _ _ _ _ => h.trans (setHost_onlyHost _ t)

theorem acceptRequest_onlyHost (r : HostRequest) (s : State) : OnlyHost s (acceptRequest r s) := by
  unfold acceptRequest
  split <;> rfl

theorem runHost_onlyHost (s : State) : OnlyHost s (runHost s) :=
  runHost_induct (P := OnlyHost s) (fun t h => h.trans (takeWords_onlyHost _ t))
    (fun _ r _ h _ _ => (h.trans (setHost_onlyHost _ _)).trans (acceptRequest_onlyHost r _)) (.refl s)

/-! ### Answers -/

/-- A command other than POWER_ON and RESET_ASSERT: nothing has changed, or acts were done outside the RESET input. -/
abbrev WorksFrom (i : Instr) (s t : State) : Prop := t = s ∨ s.resetAsserted = false ∧ Work i s t

theorem WorksFrom.of_unlessReset {i : Instr} {s t : State} {r : Result} (h : unlessReset s r = .next t)
    (hr : r = .next t → Work i s t) : WorksFrom i s t := by
  rcases unlessReset_eq_next h with ⟨-, e⟩ | ⟨h0, e⟩
  · exact .inl e
  · exact .inr ⟨h0, hr e⟩

/-- A command that always answers, unless the RESET input is asserted. -/
theorem WorksFrom.of_unlessReset_next {i : Instr} {s t u : State} (h : unlessReset s (.next u) = .next t) (hw : Work i s u) :
    WorksFrom i s t := .of_unlessReset h fun e => by cases e; exact hw

theorem WorksFrom.of_takeFrame {i : Instr} {r : Receive} {b : List Byte} {s t : State} {e : State → State}
    (h : takeFrame r b s e = .next t) (he : ∀ u, Work i u (e u)) : WorksFrom i s t := by
  rcases takeFrame_eq_next h with e | ⟨h0, -, -, rfl⟩ | ⟨h0, -, -, rfl⟩
  · exact .inl e
  · exact .inr ⟨h0, (Work.frameEnds i s r b).trans (Work.discardFrame i _)⟩
  · exact .inr ⟨h0, (Work.frameEnds i s r b).trans (he _)⟩

/-- An answer to the running job's request that is recorded in the job. -/
theorem WorksFrom.of_jobAnswer {i : Instr} {s t : State} {p : Purpose} {f : Job → State → Job}
    (h : unlessReset s (jobAnswer p s (fun j u => .next (afterAnswer (u.setRunning (some (f j u)))))) = .next t)
    (hp : p = .opening ∨ p = .dataWrite ∨ p = .releaseRead ∨ p = .releaseWrite ∨ p = .closing)
    (hf : ∀ j u, (f j u).kind = j.kind ∧ (f j u).group = j.group ∧ (f j u).count = j.count ∧ (f j u).phase = j.phase) :
    WorksFrom i s t := by
  refine .of_unlessReset h fun e => ?_
  obtain ⟨q, j, hport, hrun, e⟩ := jobAnswer_eq_next e
  cases e
  exact (Work.one (.answer j _ _ hport hrun hp (hf j _))).trans (Work.afterAnswer fun _ => rfl)

/-- An answer noted by a job changes only its fault fields. -/
theorem noteAnswer_fields (j : Job) (st : PortStatus) (pos : FaultPosition) :
    (j.noteAnswer st pos).kind = j.kind ∧ (j.noteAnswer st pos).group = j.group ∧ (j.noteAnswer st pos).count = j.count ∧
      (j.noteAnswer st pos).phase = j.phase := by
  cases st <;> exact ⟨rfl, rfl, rfl, rfl⟩

/-- An answer to the host path's request, recorded in the active request. -/
theorem Work.recordHost {i : Instr} {s : State} (a : ActiveRequest) :
    Work i s (Machine.afterAnswer (Machine.runHost ((s.setPort none).setActive (some a)))) :=
  ((Work.one .release).trans (Work.setActive i (s.setPort none) (some a))).trans
    ((Work.runHost i _).trans (Work.afterAnswer fun _ => (runHost_onlyHost _).port))

theorem WorksFrom.of_takeCommand {i : Instr} {s t : State} {e : State → State} (h : takeCommand i s e = .next t)
    (he : ∀ u, Work i u (e u)) : WorksFrom i s t := .of_takeFrame h he

theorem Work.closingAnswer {i : Instr} {s : State} {j : Job} {q : PortRequest} (st : PortStatus)
    (hp : s.port = some ⟨.closing, q⟩) (hr : s.engine.running = some j) :
    Work i s (Machine.afterAnswer (if (s.setPort none).resetting.isSome then
      (s.setPort none).setRunning (some (j.noteAnswer st .sequenceWord))
      else Machine.closeJob (j.noteAnswer st .sequenceWord) (s.setPort none))) := by
  have hn := noteAnswer_fields j st .sequenceWord
  split
  · exact (Work.one (.answer j _ _ hp hr (by simp) hn)).trans (Work.afterAnswer fun _ => rfl)
  · refine (Work.closeJob ⟨hr, .inr ⟨rfl, q, hp⟩⟩ ⟨hn.2.1, hn.2.2.1⟩).trans (Work.afterAnswer fun _ => ?_)
    unfold Machine.closeJob
    rw [completeImageJob_port]
    split <;> rfl

@[simp] theorem failCapture_port (j : Job) (s : State) : (failCapture j s).port = s.port := by
  rcases failCapture_cases j s with e | ⟨x, -, -, ⟨-, e⟩ | ⟨-, e⟩⟩ <;> rw [e] <;> rfl

theorem Work.burstAnswer {i : Instr} {s t : State} {j : Job} {q : PortRequest} {st : PortStatus} {data : List Word}
    (hp : s.port = some ⟨.burst, q⟩) (hr : s.engine.running = some j)
    (h : (match st with
      | .okay =>
        if data.length = q.words.length then
          Host.Outcome.next (Machine.afterAnswer ((placeBurst j.group data (s.setPort none)).setRunning
            (some { j with progress := j.progress + data.length })))
        else .fault .malformedResponse
      | .fault => .next (Machine.afterAnswer (if (s.setPort none).resetting.isSome then s.setPort none
          else Machine.abortCapture j (s.setPort none))) : Result) = .next t) : Work i s t := by
  rcases st with _ | _
  · simp only at h
    split at h
    · next hd =>
      cases h
      unfold placeBurst
      rcases input_or_absent s j.group with ⟨x, hx, hk⟩ | ho
      · rw [State.onInput_of_input (s := s.setPort none) _ hx hk]
        exact (Work.one (.burst j x data q hp hr hd hx hk)).trans (Work.afterAnswer fun _ => rfl)
      · rw [State.onInput_of_absent (s := s.setPort none) _ ho]
        exact (Work.one (.strayBurst j _ q hp hr ho)).trans (Work.afterAnswer fun _ => rfl)
    · cases h
  · cases h
    split
    · exact (Work.one .release).trans (Work.afterAnswer fun _ => rfl)
    · refine (Work.abortCapture ⟨hr, .inr ⟨rfl, q, hp⟩⟩).trans (Work.afterAnswer fun _ => ?_)
      unfold Machine.abortCapture
      rw [failCapture_port]
      rfl

/-! ### Every command -/

/-- What a command that answers a next state has done. -/
theorem exec_works {i : Instr} {s t : State} (h : exec i s = .next t) :
    (i = .powerOn ∧ t = { State.reset with pending := s.pending }) ∨ (i = .resetAssert ∧ execResetAssert s = .next t) ∨
      WorksFrom i s t := by
  cases i
  case powerOn => cases h; exact .inl ⟨rfl, rfl⟩
  case resetAssert => exact .inr (.inl ⟨rfl, h⟩)
  all_goals refine .inr (.inr ?_)
  case hostRequest r =>
    change execHostRequest r s = _ at h
    unfold execHostRequest at h
    split at h
    · exact .of_unlessReset_next h (((Work.setHost _ s _).trans (Work.runHost _ _)).trans (Work.settle _ _))
    · cases h
  case runResponse st data =>
    refine .of_unlessReset h fun e => ?_
    obtain ⟨q, a, -, -, e⟩ := hostAnswer_eq_next e
    split at e
    · cases e
    · cases e; exact Work.recordHost _
  case layeredReadResponse st data =>
    refine .of_unlessReset h fun e => ?_
    obtain ⟨q, a, -, -, e⟩ := hostAnswer_eq_next e
    cases e; exact Work.recordHost _
  case timerExpiry n => exact .of_unlessReset_next h (Work.timerExpired rfl n s)
  case syncRisingEdge line =>
    exact .of_unlessReset_next h ((((Work.observeSync rfl line 0 s).trans (Work.observeSync rfl line 1 _)).trans
      (Work.observeSync rfl line 2 _)).trans (Work.observeSync rfl line 3 _))
  case watchExpiry n => exact .of_unlessReset_next h (Work.watchExpired rfl n s)
  case standInExpiry n => exact .of_unlessReset_next h (Work.standInExpired rfl n s)
  case absorbWindowClose n => exact .of_unlessReset_next h (Work.setSource rfl s n _)
  case edgeDelivery n g => exact .of_unlessReset_next h (Work.deliverToGroup _ n g s)
  case parentEdgeDelivery n c => exact .of_unlessReset_next h (Work.deliverToChild rfl n c s)
  case openingWriteResponse st =>
    exact .of_jobAnswer (f := fun j _ => j.noteAnswer st .sequenceWord) h (by simp) fun j _ => noteAnswer_fields j st _
  case dataWriteResponse st =>
    exact .of_jobAnswer (f := fun j u => { j.noteAnswer st (u.currentPosition j) with progress := j.progress + 1 }) h (by simp)
      fun j u => noteAnswer_fields j st (u.currentPosition j)
  case releaseReadResponse st data =>
    cases st
    · exact .of_jobAnswer (f := fun j u =>
        { j with releaseData := some (data &&& (u.currentEntry j).elim 0 (fun e => e.data)) }) h (by simp)
        fun j u => ⟨rfl, rfl, rfl, rfl⟩
    · exact .of_jobAnswer (f := fun j u =>
        { j.noteAnswer .fault (u.currentPosition j) with progress := j.progress + 1, releaseData := none }) h (by simp)
        fun j u => noteAnswer_fields j .fault (u.currentPosition j)
  case releaseWriteResponse st =>
    exact .of_jobAnswer (f := fun j u =>
      { j.noteAnswer st (u.currentPosition j) with progress := j.progress + 1, releaseData := none }) h (by simp)
      fun j u => noteAnswer_fields j st (u.currentPosition j)
  case marginExpiry g =>
    refine .of_unlessReset_next h ?_
    split
    · exact (Work.one (.margin g)).trans (Work.settle _ _)
    · exact .refl
  case closingWriteResponse st =>
    refine .of_unlessReset h fun e => ?_
    obtain ⟨q, j, hp, hr, e⟩ := jobAnswer_eq_next e
    cases e
    exact Work.closingAnswer st hp hr
  case captureBurstResponse st data =>
    refine .of_unlessReset h fun e => ?_
    split at e
    · cases e
    · next q hq =>
      obtain ⟨q', j, hp, hr, e⟩ := jobAnswer_eq_next e
      obtain rfl : q' = q := by simpa [State.outstanding, hp] using hq
      exact Work.burstAnswer hp hr e
  case tornWriteResponse st =>
    refine .of_unlessReset h fun e => ?_
    split at e
    · cases e
      exact ((Work.one .release).trans (Work.setResetting _ _ _)).trans (Work.continueReset _ _ _)
    · cases e
  case transferStart => exact .of_unlessReset_next h (.single (.link _ (.inl rfl) (.inr rfl)))
  case frameTruncated b =>
    change execFrameTruncated b s = _ at h
    unfold execFrameTruncated at h
    split at h
    · exact .of_takeFrame h fun u => Work.respond _ u .truncated 0 [] (Nat.zero_le _) fun _ => rfl
    · cases h
  case frameRefused b =>
    change execFrameRefused b s = _ at h
    unfold execFrameRefused at h
    split at h
    · exact .of_takeFrame h fun u => Work.reply _ u _ _
    · cases h
    · cases h
  case frameDiscarded b =>
    change execFrameDiscarded b s = _ at h
    unfold execFrameDiscarded at h
    split at h
    · split at h
      · exact .of_takeFrame h fun u => .refl
      · cases h
    · cases h
  case nop tag =>
    refine .of_unlessReset_next h ?_
    split
    · exact Work.frameEnds _ _ _ _
    · exact .refl
  case identify tag => exact .of_takeCommand h fun u => Work.respond _ u .ok tag identity (by decide) fun h => absurd rfl h
  case readDevice tag => exact .of_takeCommand h fun u => Work.readDevice _ tag u
  case resetDevice tag => exact .of_takeCommand h fun u => Work.resetDevice rfl tag u
  case defineSource tag f => exact .of_takeCommand h fun u => Work.defineSource rfl tag f u
  case startSource tag n => exact .of_takeCommand h fun u => Work.startSource rfl tag n u
  case stopSource tag n => exact .of_takeCommand h fun u => Work.stopSource rfl tag n u
  case skipEdge tag n c => exact .of_takeCommand h fun u => Work.skipEdge rfl tag n c u
  case insertEdge tag n => exact .of_takeCommand h fun u => Work.insertEdge rfl tag n u
  case readSource tag n => exact .of_takeCommand h fun u => Work.readSource _ tag n u
  case defineGroup tag f => exact .of_takeCommand h fun u => Work.defineGroup tag f u
  case deleteGroup tag g => exact .of_takeCommand h fun u => Work.deleteGroup tag g u
  case enableGroup tag g => exact .of_takeCommand h fun u => Work.enableGroup tag g u
  case disableGroup tag g => exact .of_takeCommand h fun u => Work.disableGroup _ tag g u
  case resumeGroup tag g => exact .of_takeCommand h fun u => Work.resumeGroup _ tag g u
  case loadSafe tag g first loads =>
    change execLoadSafe tag g first loads s = _ at h
    unfold execLoadSafe at h
    split at h
    · exact .of_takeCommand h fun u => Work.loadSafe tag g first loads u
    · cases h
  case readGroup tag g => exact .of_takeCommand h fun u => Work.readGroup _ tag g u
  case setEventMask tag m => exact .of_takeCommand h fun u => Work.setEventMask _ tag m u
  case readEvents tag n => exact .of_takeCommand h fun u => Work.readEvents _ tag n u

/-! ### What every act keeps, every step keeps -/

/-- No act changes the RESET input (R1). -/
theorem Act.resetAsserted {i : Instr} {s t : State} (h : Act i s t) : t.resetAsserted = s.resetAsserted := by
  cases h <;> rfl

theorem Work.keeps {i : Instr} {P : State → Prop}
    (hact : ∀ u v, u.resetAsserted = false → Act i u v → P u → P v) {s t : State} (h0 : s.resetAsserted = false)
    (hw : Work i s t) (h : P s) : P t := by
  have hboth : t.resetAsserted = false ∧ P t := by
    induction hw with
    | refl => exact ⟨h0, h⟩
    | tail _ ha ih => exact ⟨ha.resetAsserted.trans ih.1, hact _ _ ih.1 ha ih.2⟩
  exact hboth.2

/-- A law that the acts outside the RESET input keep, that the two resets of the pins establish or keep, and that does not read the
queue of waiting commands, is kept by every step. -/
theorem step_keeps {P : State → Prop} (hact : ∀ i u v, u.resetAsserted = false → Act i u v → P u → P v)
    (hpower : ∀ p, P { State.reset with pending := p }) (hassert : ∀ u v, execResetAssert u = .next v → P u → P v)
    (hpending : ∀ u p, P u → P { u with pending := p }) {s t : State} (h : P s) (hstep : step s = .next t) : P t := by
  rcases step_cases s with ⟨-, e⟩ | ⟨c, rest, -, e⟩
  · rw [e] at hstep
    cases hstep
    by_cases h0 : s.resetAsserted = false
    · exact Work.keeps (hact (.nop 0)) h0 (Work.tick _ s) h
    · rcases tick_cases s with e | ⟨a, -, h0', -⟩
      · rw [e]; exact h
      · exact absurd h0' h0
  · rw [e] at hstep
    have hp := hpending s rest h
    rcases exec_works hstep with ⟨-, rfl⟩ | ⟨-, ha⟩ | rfl | ⟨h0, hw⟩
    · exact hpower _
    · exact hassert _ _ ha hp
    · exact hp
    · exact Work.keeps (hact c) h0 hw hp

end Sys2Proof.Machine
end

section
/-! SUPPORT. What an act does to the groups and to the three stores of entries, said once: nothing, a change of one group, a definition,
a deletion, or the abandonment. -/

namespace Sys2Proof.Machine

open Sys2Proof.Safety

/-! ### One group, and the stores -/

/-- The free entries of the stage pool and of the safe store, and the free words of the snapshot store. -/
structure Stores where
  stage : Nat
  safe : Nat
  snapshot : Nat

/-- The three stores of a state. -/
def State.stores (s : State) : Stores := { stage := s.freeStage, safe := s.freeSafe, snapshot := s.freeSnapshot }

/-- What an act of the command i can make of one group, and of the stores with it. -/
inductive Group.Changes (i : Instr) (s : State) (x : Group) : Group → Stores → Prop
  | moves (y : Group) (n : Nat) (hm : x.Moves s.freeStage y n) : Changes i s x y { s.stores with stage := n }
  | commit (img : Image) (hk : x.record.kind = .output) (hs : x.state = .live ∨ x.state = .safe) (ha : x.armed = some img)
      (hc : x.committing = none) :
      Changes i s x { x with state := .live, armed := none, committing := some (.commit img), staleCount := 0 } s.stores
  | safe (hk : x.record.kind = .output) (hs : x.state = .safe) (hc : x.committing = none) :
      Changes i s x { x with committing := some .safe, pendingSafe := false } s.stores
  | capture : Changes i s x { x with captureInFlight := true } s.stores
  | fill (ws : List Word) : Changes i s x { x with back := .filling ws } s.stores
  | complete (c : BitVec 30) (hk : x.record.kind = .output) :
      Changes i s x { x with
        state := if x.state = .draining then .disabled else x.state, seqCount := c, committing := none }
        { s.stores with stage := s.freeStage + x.committing.elim 0 Committing.stageEntries }
  | captured (front : Option Bank) (back : BackBank) (hs : x.state ≠ .draining)
      (hb : front = x.front ∧ back = .idle ∨ x.state = .live ∧ (back.isPending = true → x.held = true)) :
      Changes i s x { x with captureInFlight := false, front := front, back := back } s.stores
  | drained (hk : x.record.kind = .input) (hs : x.state = .draining) :
      Changes i s x { x with state := .disabled, front := none, back := .idle, held := false, captureInFlight := false }
        { s.stores with snapshot := s.freeSnapshot + 2 * x.record.length }
  | enableOutput (hk : x.record.kind = .output) (hs : x.state = .disabled) (hi : ∃ tag b, i = .enableGroup tag b) :
      Changes i s x x.enableOutput s.stores
  | enableInput (hk : x.record.kind = .input) (hs : x.state = .disabled)
      (hw : s.enabledInputWords + x.record.length ≤ Config.inputWords) :
      Changes i s x x.enableInput { s.stores with snapshot := s.freeSnapshot - 2 * x.record.length }
  | disableOutput (hk : x.record.kind = .output) (hc : x.committing = none) :
      Changes i s x { x with state := .disabled, filling := none, armed := none, pendingSafe := false }
        { s.stores with
          stage := s.freeStage + (x.filling.elim 0 (fun f => f.entries.length) + x.armed.elim 0 List.length) }
  | disableInput (hk : x.record.kind = .input) (hs : x.state = .live ∨ x.state = .safe) :
      Changes i s x { x with state := .disabled, front := none, back := .idle, held := false }
        { s.stores with snapshot := s.freeSnapshot + 2 * x.record.length }
  | loadSafe (tag b first : Byte) (loads : List SafeEntry) (hi : i = .loadSafe tag b first loads) (hs : x.state = .disabled)
      (hl : ∀ l ∈ loads, l.offset.toNat < x.record.length)
      (hf : (loadedImage x first loads).length ≤ s.freeSafe + x.safeEntries) :
      Changes i s x { x with safeImage := some (loadedImage x first loads) }
        { s.stores with safe := s.freeSafe + x.safeEntries - (loadedImage x first loads).length }

/-- What an act can do to the groups and the stores. -/
inductive GroupsAct (i : Instr) (s t : State) : Prop
  | keep (hg : t.groups = s.groups) (hst : t.stores = s.stores)
  | change (g : GroupNo) (x y : Group) (hx : s.group g = some x) (hg : t.groups = s.groups.set g (some y))
      (hc : x.Changes i s y t.stores)
  | define (g : GroupNo) (tag : Byte) (f : GroupFields) (hi : i = .defineGroup tag f) (hd : s.definable g = true)
      (hv : (rangeFieldsValid f && kindFieldsValid f && (recordOfFields f).seqValid
        && s.clearOfOthers g (recordOfFields f)) = true)
      (hg : t.groups = s.groups.set g (some (Group.defined (recordOfFields f))))
      (hst : t.stores = { s.stores with safe := s.freeSafe + s.slotSafeEntries g })
  | delete (g : GroupNo) (x : Group) (tag b : Byte) (hi : i = .deleteGroup tag b) (hx : s.group g = some x)
      (hs : x.state = .disabled) (hg : t.groups = s.groups.set g none)
      (hst : t.stores = { s.stores with safe := s.freeSafe + x.safeEntries })
  | abandon (hg : t.groups = s.groups.map (fun o => o.map Group.abandoned))
      (hst : t.stores = { s.stores with stage := Config.stageEntries, snapshot := Config.snapshotWords })

theorem Act.groupsAct {i : Instr} {s t : State} (h : Act i s t) : GroupsAct i s t := by
  cases h with
  | moves g x y n hx hm => exact .change g x y hx rfl (.moves y n hm)
  | commit g x img j hx hk hs ha hc hj => exact .change g x _ hx rfl (.commit img hk hs ha hc)
  | safe g x j hx hk hs hc hj => exact .change g x _ hx rfl (.safe hk hs hc)
  | capture g x ep hx hk hs hc => exact .change g x _ hx rfl .capture
  | dispatchCapture j rest x hb hr hq hj hx hk => exact .change j.group x _ hx rfl (.fill [])
  | complete j x p hl hx hk => exact .change j.group x _ hx rfl (.complete j.count hk)
  | captured j x front back p hl hx hk hs hb =>
    refine .change j.group x _ hx rfl (.captured front back hs ?_)
    rcases hb with h | ⟨hlive, -, ⟨hh, -, rfl⟩ | ⟨hh, -, rfl⟩⟩
    · exact .inl h
    · exact .inr ⟨hlive, fun _ => hh⟩
    · exact .inr ⟨hlive, nofun⟩
  | drained j x p hl hx hk hs => exact .change j.group x _ hx rfl (.drained hk hs)
  | burst j x data q hp hr hd hx hk => exact .change j.group x _ hx rfl (.fill _)
  | enableOutput g x hx hk hs hi => exact .change g x _ hx rfl (.enableOutput hk hs hi)
  | enableInput g x hx hk hs hw => exact .change g x _ hx rfl (.enableInput hk hs hw)
  | disableOutput g x hx hk hs hc => exact .change g x _ hx rfl (.disableOutput hk hc)
  | disableInput g x hx hk hs hc => exact .change g x _ hx rfl (.disableInput hk hs)
  | loadSafe g x tag b first loads hi hx hs hl hf => exact .change g x _ hx rfl (.loadSafe tag b first loads hi hs hl hf)
  | define g tag f hi hd hv => exact .define g tag f hi hd hv rfl rfl
  | delete g x tag b hi hx hs => exact .delete g x tag b hi hx hs rfl rfl
  | abandon hp => exact .abandon rfl rfl
  | _ => exact .keep rfl rfl

/-! ### Reading a slot -/

theorem group_of_groups_eq {s t : State} (h : t.groups = s.groups) (g : GroupNo) : t.group g = s.group g := by
  simp only [State.group, h]

theorem group_of_groups_set {s t : State} {g : GroupNo} {o : Option Group} (h : t.groups = s.groups.set g o) (k : GroupNo) :
    t.group k = if g = k then o else s.group k := by
  simp only [State.group, h, Fin.getElem_fin, Vector.getElem_set, Fin.ext_iff]

theorem group_of_groups_map {s t : State} {f : Option Group → Option Group} (h : t.groups = s.groups.map f) (k : GroupNo) :
    t.group k = f (s.group k) := by
  simp [State.group, h]

/-- A law of each group by itself that a definition establishes, and that every change and the abandonment keep, is kept by every
act. -/
theorem GroupsAct.keeps {Q : Group → Prop} {i : Instr} {s t : State} (h : GroupsAct i s t)
    (hchange : ∀ x y d, x.Changes i s y d → Q x → Q y)
    (hdefine : ∀ f, rangeFieldsValid f = true → Q (Group.defined (recordOfFields f)))
    (habandon : ∀ x, Q x → Q x.abandoned)
    (hs : ∀ g : GroupNo, ∀ x ∈ s.group g, Q x) : ∀ g : GroupNo, ∀ x ∈ t.group g, Q x := by
  intro k z hz
  rcases h with ⟨hg, -⟩ | ⟨g, x, y, hx, hg, hc⟩ | ⟨g, tag, f, -, -, hv, hg, -⟩ | ⟨g, x, tag, b, -, hx, -, hg, -⟩ | ⟨hg, -⟩
  · rw [group_of_groups_eq hg] at hz; exact hs k z hz
  · rw [group_of_groups_set hg] at hz
    split at hz
    · cases hz; exact hchange x _ _ hc (hs g x hx)
    · exact hs k z hz
  · rw [group_of_groups_set hg] at hz
    split at hz
    · cases hz
      simp only [Bool.and_eq_true] at hv
      exact hdefine f hv.1.1.1
    · exact hs k z hz
  · rw [group_of_groups_set hg] at hz
    split at hz
    · cases hz
    · exact hs k z hz
  · rw [group_of_groups_map hg] at hz
    obtain ⟨x, hx, rfl⟩ := Option.map_eq_some_iff.mp hz
    exact habandon x (hs k x hx)

/-- After power-on every slot is UNDEFINED (R1). -/
theorem group_of_reset (p : List Instr) (g : GroupNo) : ({ State.reset with pending := p } : State).group g = none := by
  simp [State.group, State.reset]

/-- A law of each group by itself that a definition establishes, and that every change and the abandonment keep, is kept by every
step. -/
theorem step_keeps_groups {Q : Group → Prop} (hchange : ∀ i s x y d, Group.Changes i s x y d → Q x → Q y)
    (hdefine : ∀ f, rangeFieldsValid f = true → Q (Group.defined (recordOfFields f)))
    (habandon : ∀ x, Q x → Q x.abandoned) {s t : State} (hstep : step s = .next t)
    (h : ∀ g : GroupNo, ∀ x ∈ s.group g, Q x) : ∀ g : GroupNo, ∀ x ∈ t.group g, Q x := by
  refine step_keeps (P := fun s => ∀ g : GroupNo, ∀ x ∈ s.group g, Q x) ?_ ?_ ?_ (fun _ _ h => h) h hstep
  · exact fun i u v _ ha hu => ha.groupsAct.keeps (hchange i u) hdefine habandon hu
  · intro p g x hx
    rw [group_of_reset] at hx
    cases hx
  · intro u v e hu
    cases e
    exact hu

/-! ### What the record and the safe image keep -/

theorem Group.Moves.record {free n : Nat} {x y : Group} (h : x.Moves free y n) : y.record = x.record := by
  cases h with
  | swap c hs => exact Group.swapPending_record _
  | _ => rfl

theorem Group.Moves.safeImage {free n : Nat} {x y : Group} (h : x.Moves free y n) : y.safeImage = x.safeImage := by
  cases h with
  | swap c hs => exact Group.swapPending_safeImage _
  | _ => rfl

theorem Group.Changes.record {i : Instr} {s : State} {x y : Group} {d : Stores} (h : x.Changes i s y d) :
    y.record = x.record := by
  cases h with
  | moves y n hm => exact hm.record
  | _ => rfl

theorem Group.Changes.safeImage {i : Instr} {s : State} {x y : Group} {d : Stores} (h : x.Changes i s y d)
    (hi : ∀ tag b first loads, i ≠ .loadSafe tag b first loads) : y.safeImage = x.safeImage ∧ d.safe = s.freeSafe := by
  cases h with
  | moves y n hm => exact ⟨hm.safeImage, rfl⟩
  | loadSafe tag b first loads e => exact absurd e (hi tag b first loads)
  | _ => exact ⟨rfl, rfl⟩

theorem Group.abandoned_record (x : Group) : x.abandoned.record = x.record := by
  unfold Group.abandoned; split <;> rfl

theorem Group.abandoned_safeImage (x : Group) : x.abandoned.safeImage = x.safeImage := by
  unfold Group.abandoned; split <;> rfl

/-- Outside definition and deletion no act changes a record (R2, R4, R5). -/
theorem GroupsAct.records {i : Instr} {s t : State} (h : GroupsAct i s t) (hd : ∀ tag f, i ≠ .defineGroup tag f)
    (he : ∀ tag b, i ≠ .deleteGroup tag b) (k : GroupNo) : (t.group k).map Group.record = (s.group k).map Group.record := by
  rcases h with ⟨hg, -⟩ | ⟨g, x, y, hx, hg, hc⟩ | ⟨g, tag, f, hi, -⟩ | ⟨g, x, tag, b, hi, -⟩ | ⟨hg, -⟩
  · rw [group_of_groups_eq hg]
  · rw [group_of_groups_set hg]
    split
    · next e => subst e; rw [hx]; exact congrArg some hc.record
    · rfl
  · exact absurd hi (hd tag f)
  · exact absurd hi (he tag b)
  · rw [group_of_groups_map hg]
    cases s.group k with
    | none => rfl
    | some x => exact congrArg some x.abandoned_record

/-- Outside definition, deletion and LOAD_SAFE no act changes a safe image or the free safe entries (R132, R133). -/
theorem GroupsAct.safeImages {i : Instr} {s t : State} (h : GroupsAct i s t) (hd : ∀ tag f, i ≠ .defineGroup tag f)
    (he : ∀ tag b, i ≠ .deleteGroup tag b) (hl : ∀ tag b first loads, i ≠ .loadSafe tag b first loads) :
    t.freeSafe = s.freeSafe ∧ ∀ k, (t.group k).bind Group.safeImage = (s.group k).bind Group.safeImage := by
  rcases h with ⟨hg, hst⟩ | ⟨g, x, y, hx, hg, hc⟩ | ⟨g, tag, f, hi, -⟩ | ⟨g, x, tag, b, hi, -⟩ | ⟨hg, hst⟩
  · exact ⟨congrArg Stores.safe hst, fun k => by rw [group_of_groups_eq hg]⟩
  · obtain ⟨himg, hfree⟩ := hc.safeImage hl
    refine ⟨hfree, fun k => ?_⟩
    rw [group_of_groups_set hg]
    split
    · next e => subst e; rw [hx]; exact himg
    · rfl
  · exact absurd hi (hd tag f)
  · exact absurd hi (he tag b)
  · refine ⟨congrArg Stores.safe hst, fun k => ?_⟩
    rw [group_of_groups_map hg]
    cases s.group k with
    | none => rfl
    | some x => exact x.abandoned_safeImage

end Sys2Proof.Machine
end

section
/-! PROOFS. The obligation about records and safe images (R2, R4, R5, R132, R133). -/

namespace Sys2Proof.Machine

open Sys2Proof.Safety

/-- Settles O59: no act outside the named commands touches a record or a safe image, and every command is a run of acts. -/
theorem recordsAndSafeImagesChangeOnlyByCommand : Obligations.RecordsAndSafeImagesChangeOnlyByCommand := by
  intro i s t h hpower hdefine hdelete
  rcases exec_works h with ⟨rfl, -⟩ | ⟨-, ha⟩ | rfl | ⟨h0, hw⟩
  · exact absurd rfl hpower
  · cases ha; exact ⟨fun _ => rfl, fun _ => ⟨rfl, fun _ => rfl⟩⟩
  · exact ⟨fun _ => rfl, fun _ => ⟨rfl, fun _ => rfl⟩⟩
  · refine ⟨fun g => ?_, fun hload => ?_⟩
    · exact Work.keeps (P := fun u => (u.group g).map Group.record = (s.group g).map Group.record)
        (fun u v _ ha hu => (ha.groupsAct.records hdefine hdelete g).trans hu) h0 hw rfl
    · refine Work.keeps (P := fun u => u.freeSafe = s.freeSafe ∧
        ∀ g, (u.group g).bind Group.safeImage = (s.group g).bind Group.safeImage) (fun u v _ ha hu => ?_) h0 hw ⟨rfl, fun _ => rfl⟩
      obtain ⟨hfree, himg⟩ := ha.groupsAct.safeImages hdefine hdelete hload
      exact ⟨hfree.trans hu.1, fun g => (himg g).trans (hu.2 g)⟩

end Sys2Proof.Machine
end

section
/-! SUPPORT. Images as lists of entries: which offsets a merge, an append and a coalescing leave, what stands at an offset, and that
the law of images (R8) is kept. -/

namespace Sys2Proof.Machine

open Sys2Proof.Safety

/-! ### Offsets -/

theorem Image.holds_iff {img : Image} {off : Byte} : Image.holds img off = true ↔ off ∈ img.map Entry.offset := by
  simp only [Image.holds, List.any_eq_true, beq_iff_eq, List.mem_map]

theorem Image.holds_eq_false {img : Image} {off : Byte} : Image.holds img off = false ↔ off ∉ img.map Entry.offset := by
  rw [← Image.holds_iff, Bool.not_eq_true]

@[simp] theorem Image.mergeAt_offsets (img : Image) (off : Byte) (data : Word) (l : Lanes) :
    (Image.mergeAt img off data l).map Entry.offset = img.map Entry.offset := by
  simp only [Image.mergeAt, List.map_map]
  refine List.map_congr_left fun e _ => ?_
  simp only [Function.comp]
  split <;> rfl

@[simp] theorem Image.mergeAt_length (img : Image) (off : Byte) (data : Word) (l : Lanes) :
    (Image.mergeAt img off data l).length = img.length := by
  simp [Image.mergeAt]

/-- An entry that goes into an armed image keeps the offsets, or adds its own at the end (R17). -/
theorem Image.absorb_offsets (armed : Image) (e : Entry) :
    (Image.absorb armed e).map Entry.offset =
      if e.offset ∈ armed.map Entry.offset then armed.map Entry.offset else armed.map Entry.offset ++ [e.offset] := by
  unfold Image.absorb
  by_cases h : e.offset ∈ armed.map Entry.offset
  · rw [if_pos (Image.holds_iff.mpr h), if_pos h, Image.mergeAt_offsets]
  · rw [if_neg (by rwa [Image.holds_iff]), if_neg h, List.map_append, List.map_singleton]

theorem Image.coalesce_cons (armed : Image) (e : Entry) (filling : Image) :
    Image.coalesce armed (e :: filling) = Image.coalesce (Image.absorb armed e) filling := rfl

theorem Image.coalesce_offsets (armed filling : Image) (h : (filling.map Entry.offset).Nodup) :
    (Image.coalesce armed filling).map Entry.offset =
      armed.map Entry.offset ++ (filling.map Entry.offset).filter (fun o => !(armed.map Entry.offset).contains o) := by
  induction filling generalizing armed with
  | nil => simp [Image.coalesce]
  | cons e fs ih =>
    rw [List.map_cons, List.nodup_cons] at h
    rw [Image.coalesce_cons, ih _ h.2, Image.absorb_offsets, List.map_cons, List.filter_cons]
    by_cases he : e.offset ∈ armed.map Entry.offset
    · rw [if_pos he, if_neg (by simpa using he)]
    · rw [if_neg he, if_pos (by simpa using he), List.append_assoc, List.singleton_append]
      congr 2
      refine List.filter_congr fun o ho => ?_
      have hne : o ≠ e.offset := fun heq => h.1 (heq ▸ ho)
      simp [hne]

theorem Image.absorb_length_le (armed : Image) (e : Entry) : (Image.absorb armed e).length ≤ armed.length + 1 := by
  unfold Image.absorb
  split <;> simp

theorem Image.coalesce_length_le (armed filling : Image) :
    (Image.coalesce armed filling).length ≤ armed.length + filling.length := by
  induction filling generalizing armed with
  | nil => exact Nat.le_refl _
  | cons e fs ih =>
    rw [Image.coalesce_cons, List.length_cons]
    have h1 := ih (Image.absorb armed e)
    have h2 := Image.absorb_length_le armed e
    omega

/-! ### Entries -/

theorem Image.entryAt_offset {img : Image} {off : Byte} {e : Entry} (h : Image.entryAt img off = some e) : e.offset = off := by
  simpa using List.find?_some h

theorem Image.entryAt_eq_none {img : Image} {off : Byte} : Image.entryAt img off = none ↔ off ∉ img.map Entry.offset := by
  simp [Image.entryAt]

/-- A merge changes the entry of its offset alone (R11). -/
theorem Image.entryAt_mergeAt (img : Image) (off off' : Byte) (data : Word) (l : Lanes) :
    Image.entryAt (Image.mergeAt img off data l) off' = (Image.entryAt img off').map (fun d =>
      if off' = off then ⟨off', mergeLanes d.data data l, d.lanes ||| l⟩ else d) := by
  have hsame : ((fun e : Entry => e.offset == off') ∘ fun e : Entry =>
      if e.offset = off then { e with data := mergeLanes e.data data l, lanes := e.lanes ||| l } else e) =
      fun e => e.offset == off' := by
    funext e
    simp only [Function.comp]
    split <;> rfl
  rw [Image.entryAt, Image.mergeAt, List.find?_map, hsame, ← Image.entryAt]
  rcases hd : Image.entryAt img off' with - | d
  · rfl
  · have hoff := Image.entryAt_offset hd
    subst hoff
    rfl

/-- What stands at an offset after an entry went into an armed image (R17). -/
theorem Image.entryAt_absorb (armed : Image) (e : Entry) (off : Byte) :
    Image.entryAt (Image.absorb armed e) off =
      if e.offset = off then
        some ((Image.entryAt armed off).elim e (fun d => ⟨off, mergeLanes d.data e.data e.lanes, d.lanes ||| e.lanes⟩))
      else Image.entryAt armed off := by
  unfold Image.absorb
  by_cases h : e.offset ∈ armed.map Entry.offset
  · rw [if_pos (Image.holds_iff.mpr h), Image.entryAt_mergeAt]
    split
    · next he =>
      subst he
      rcases hd : Image.entryAt armed e.offset with - | d
      · exact absurd h (Image.entryAt_eq_none.mp hd)
      · simp
    · next he => simp [Ne.symm he]
  · rw [if_neg (by rwa [Image.holds_iff]), Image.entryAt, List.find?_append, ← Image.entryAt]
    split
    · next he =>
      subst he
      rw [Image.entryAt_eq_none.mpr h]
      simp
    · next he => simp [he]

theorem Image.entryAt_coalesce (armed filling : Image) (off : Byte) (h : (filling.map Entry.offset).Nodup) :
    Image.entryAt (Image.coalesce armed filling) off =
      (match Image.entryAt armed off, Image.entryAt filling off with
        | some d, some e => some ⟨off, mergeLanes d.data e.data e.lanes, d.lanes ||| e.lanes⟩
        | some d, none => some d
        | none, some e => some e
        | none, none => none) := by
  induction filling generalizing armed with
  | nil =>
    rw [Image.coalesce, List.foldl_nil]
    rcases Image.entryAt armed off with - | d <;> rfl
  | cons e fs ih =>
    rw [List.map_cons, List.nodup_cons] at h
    rw [Image.coalesce_cons, ih _ h.2, Image.entryAt_absorb]
    by_cases he : e.offset = off
    · subst he
      have hcons : Image.entryAt (e :: fs) e.offset = some e := by simp [Image.entryAt]
      rw [Image.entryAt_eq_none.mpr h.1, hcons, if_pos rfl]
      rcases Image.entryAt armed e.offset with - | d <;> rfl
    · have hcons : Image.entryAt (e :: fs) off = Image.entryAt fs off := by simp [Image.entryAt, he]
      rw [hcons, if_neg he]

/-! ### The law of images -/

theorem lanes_or_ne_zero {a : Lanes} (b : Lanes) (h : a ≠ 0) : a ||| b ≠ 0 := fun h' => h (BitVec.or_eq_zero_iff.mp h').1

theorem imageOk_nil (n : Nat) : ImageOk n [] := ⟨List.nodup_nil, fun _ h => absurd h List.not_mem_nil⟩

theorem imageOk_mergeAt {n : Nat} {img : Image} (h : ImageOk n img) (off : Byte) (data : Word) (l : Lanes) :
    ImageOk n (Image.mergeAt img off data l) := by
  refine ⟨by rw [Image.mergeAt_offsets]; exact h.1, fun e he => ?_⟩
  obtain ⟨d, hd, rfl⟩ := List.mem_map.mp he
  obtain ⟨hoff, hl⟩ := h.2 d hd
  split
  · exact ⟨hoff, lanes_or_ne_zero l hl⟩
  · exact ⟨hoff, hl⟩

theorem imageOk_append {n : Nat} {img : Image} {e : Entry} (h : ImageOk n img) (hnew : Image.holds img e.offset = false)
    (hoff : e.offset.toNat < n) (hl : e.lanes ≠ 0) : ImageOk n (img ++ [e]) := by
  refine ⟨?_, fun d hd => ?_⟩
  · rw [List.map_append, List.map_singleton]
    exact List.nodup_append.mpr ⟨h.1, List.nodup_singleton _, fun o ho o' ho' he =>
      Image.holds_eq_false.mp hnew (by rw [List.mem_singleton.mp ho'] at he; exact he ▸ ho)⟩
  · rcases List.mem_append.mp hd with hd | hd
    · exact h.2 d hd
    · rw [List.mem_singleton.mp hd]; exact ⟨hoff, hl⟩

theorem imageOk_coalesce {n : Nat} {armed filling : Image} (ha : ImageOk n armed)
    (hf : ∀ e ∈ filling, e.offset.toNat < n ∧ e.lanes ≠ 0) : ImageOk n (Image.coalesce armed filling) := by
  induction filling generalizing armed with
  | nil => exact ha
  | cons e fs ih =>
    obtain ⟨hoff, hl⟩ := hf e List.mem_cons_self
    refine ih ?_ fun d hd => hf d (List.mem_cons_of_mem _ hd)
    unfold Image.absorb
    split
    · exact imageOk_mergeAt ha _ _ _
    · next hn => exact imageOk_append ha (by simpa using hn) hoff hl

end Sys2Proof.Machine
end

section
/-! PROOFS. The obligation about coalescing (R17). -/

namespace Sys2Proof.Machine

/-- Settles O31: the offsets of the merged image are counted by those that the armed image holds and those that it does not. -/
theorem coalesceMergesByOffset : Obligations.CoalesceMergesByOffset := by
  intro armed filling _ hf
  refine ⟨Image.coalesce_offsets armed filling hf, ?_, fun off => Image.entryAt_coalesce armed filling off hf⟩
  have hlen := congrArg List.length (Image.coalesce_offsets armed filling hf)
  have hheld : (filling.filter (fun e => (armed.map Entry.offset).contains e.offset)).length =
      ((filling.map Entry.offset).filter (fun o => (armed.map Entry.offset).contains o)).length := by
    rw [List.filter_map, List.length_map]
    rfl
  have hsplit := List.length_eq_length_filter_add (l := filling.map Entry.offset)
    (fun o => (armed.map Entry.offset).contains o)
  simp only [List.length_append, List.length_map] at hlen hsplit
  omega

end Sys2Proof.Machine
end

section
/-! SUPPORT. The laws of each group by itself: the slots its state allows, its images, its stale count and its hold. -/

namespace Sys2Proof.Machine

open Sys2Proof.Safety

/-! ### The slots each state allows (R7, R29) -/

/-- An output group in LIVE or SAFE may hold every image. -/
theorem slots_of_active {x : Group} (hk : x.record.kind = .output) (hs : x.state = .live ∨ x.state = .safe) :
    SlotsOfState x := by
  refine ⟨fun h => ?_, fun h => ?_, fun h => ?_⟩
  · rcases hs with hs | hs <;> rw [hs] at h <;> cases h
  · rcases hs with hs | hs <;> rw [hs] at h <;> cases h
  · rw [hk] at h; cases h

/-- Only an output group in LIVE or SAFE holds a filling image. -/
theorem active_of_filling {x : Group} {f : Filling} (hx : SlotsOfState x) (hf : x.filling = some f) :
    x.record.kind = .output ∧ (x.state = .live ∨ x.state = .safe) := by
  obtain ⟨hd, hr, hi⟩ := hx
  rw [hf] at hd hr hi
  constructor
  · cases hk : x.record.kind with
    | output => rfl
    | input => exact absurd (hi hk).1 (by simp)
  · cases hs : x.state with
    | disabled => exact absurd (hd hs).1 (by simp)
    | draining => exact absurd (hr hs).1 (by simp)
    | live => exact .inl rfl
    | safe => exact .inr rfl

theorem Group.Moves.slots {free n : Nat} {x y : Group} (h : x.Moves free y n) (hx : SlotsOfState x) : SlotsOfState y := by
  cases h with
  | merge f off w hk hs | append f off w hk hs | damage f hk hs => exact slots_of_active hk hs
  | discard f d r hf | arm f hf ha | coalesce f armed c hf ha =>
    obtain ⟨hk, hs⟩ := active_of_filling hx hf
    exact slots_of_active hk hs
  | behind | stale | countHold | hold | unhold => exact hx
  | enterSafe b hk => exact slots_of_active hk (.inr rfl)
  | resume hk => exact slots_of_active hk (.inl rfl)
  | drainOutput hk => exact ⟨nofun, fun _ => ⟨rfl, rfl⟩, fun h => absurd (hk.symm.trans h) nofun⟩
  | drainInput bk hk =>
    obtain ⟨hfill, harm, -⟩ := hx.2.2 hk
    exact ⟨nofun, fun _ => ⟨hfill, harm⟩, hx.2.2⟩
  | swap c hs => simpa [SlotsOfState] using hx

theorem Group.Changes.slots {i : Instr} {s : State} {x y : Group} {d : Stores} (h : x.Changes i s y d)
    (hx : SlotsOfState x) : SlotsOfState y := by
  obtain ⟨hd, hr, hi⟩ := id hx
  cases h with
  | moves _ n hm => exact hm.slots hx
  | capture | fill | captured | loadSafe => exact ⟨hd, hr, hi⟩
  | commit img hk => exact slots_of_active hk (.inl rfl)
  | safe hk hs => exact slots_of_active hk (.inr hs)
  | complete c hk =>
    refine ⟨fun h => ?_, fun h => ?_, fun h => absurd (hk.symm.trans h) nofun⟩
    · by_cases hs : x.state = .draining
      · exact ⟨(hr hs).1, (hr hs).2, rfl⟩
      · rw [if_neg hs] at h
        exact ⟨(hd h).1, (hd h).2.1, rfl⟩
    · by_cases hs : x.state = .draining
      · exact hr hs
      · rw [if_neg hs] at h
        exact absurd h hs
  | drained hk => exact ⟨fun _ => hi hk, nofun, hi⟩
  | enableOutput hk => exact slots_of_active hk (.inl rfl)
  | enableInput hk => exact ⟨nofun, nofun, hi⟩
  | disableOutput hk hc => exact ⟨fun _ => ⟨rfl, rfl, hc⟩, nofun, fun h => absurd (hk.symm.trans h) nofun⟩
  | disableInput hk => exact ⟨fun _ => hi hk, nofun, hi⟩

theorem slots_of_defined (r : GroupRecord) : SlotsOfState (Group.defined r) :=
  ⟨fun _ => ⟨rfl, rfl, rfl⟩, fun _ => ⟨rfl, rfl⟩, fun _ => ⟨rfl, rfl, rfl⟩⟩

/-- An abandoned group is as it was, and DISABLED, or DISABLED without images, banks and hold (R32, R161). -/
theorem Group.abandoned_cases (x : Group) :
    (x.state = .disabled ∧ x.abandoned = x) ∨
    (x.state ≠ .disabled ∧ x.abandoned =
      { x with state := .disabled, filling := none, armed := none, committing := none, pendingSafe := false,
               front := none, back := .idle, captureInFlight := false, held := false }) := by
  unfold Group.abandoned
  by_cases h : x.state = .disabled
  · exact .inl ⟨h, by simp [Group.enabled, h]⟩
  · exact .inr ⟨h, by simp [Group.enabled, h]⟩

theorem slots_of_abandoned {x : Group} (h : SlotsOfState x) : SlotsOfState x.abandoned := by
  rcases x.abandoned_cases with ⟨-, e⟩ | ⟨-, e⟩ <;> rw [e]
  · exact h
  · exact ⟨fun _ => ⟨rfl, rfl, rfl⟩, nofun, fun _ => ⟨rfl, rfl, rfl⟩⟩

/-! ### Images (R8, R133) -/

/-- The law of a group's images. -/
def ImagesOk (x : Group) : Prop :=
  (∀ f, x.filling = some f → ImageOk x.record.length f.entries) ∧
  (∀ img, x.armed = some img → ImageOk x.record.length img) ∧
  (∀ img, x.committing = some (.commit img) → ImageOk x.record.length img) ∧
  ∀ l, x.safeImage = some l → (l.map SafeEntry.offset).Nodup ∧ ∀ e ∈ l, e.offset.toNat < x.record.length

theorem imageLaw_iff (s : State) : ImageLaw s ↔ ∀ g : GroupNo, ∀ x ∈ s.group g, ImagesOk x := by
  refine forall_congr' fun g => forall_congr' fun x => imp_congr_right fun _ => ?_
  refine and_congr_right fun _ => and_congr_right fun _ => and_congr_left fun _ => ?_
  constructor
  · exact fun h img hc => h _ hc
  · intro h c hc
    rcases c with img | -
    · exact h img hc
    · trivial

/-- The filling image that a word is staged in keeps the law. -/
theorem imageOk_staged {x : Group} (hx : ImagesOk x) : ImageOk x.record.length (x.filling.getD Filling.fresh).entries := by
  cases hf : x.filling with
  | none => exact imageOk_nil _
  | some f => exact hx.1 f hf

/-- A group with the same record, slots and safe image, or fewer slots, keeps the law of images. -/
theorem ImagesOk.of_subset {x y : Group} (hx : ImagesOk x) (hr : y.record = x.record)
    (hf : y.filling = none ∨ y.filling = x.filling) (ha : y.armed = none ∨ y.armed = x.armed)
    (hc : y.committing = none ∨ y.committing = some .safe ∨ y.committing = x.committing)
    (hs : y.safeImage = x.safeImage) : ImagesOk y := by
  obtain ⟨h1, h2, h3, h4⟩ := hx
  refine ⟨fun f h => ?_, fun img h => ?_, fun img h => ?_, fun l h => ?_⟩ <;> rw [hr]
  · rcases hf with e | e <;> rw [e] at h
    · cases h
    · exact h1 f h
  · rcases ha with e | e <;> rw [e] at h
    · cases h
    · exact h2 img h
  · rcases hc with e | e | e <;> rw [e] at h
    · cases h
    · cases h
    · exact h3 img h
  · exact h4 l (hs ▸ h)

theorem Group.Moves.imagesOk {free n : Nat} {x y : Group} (h : x.Moves free y n) (hx : ImagesOk x) : ImagesOk y := by
  obtain ⟨h1, h2, h3, h4⟩ := id hx
  have hstaged := imageOk_staged hx
  cases h with
  | merge f off w hk hs hf => subst hf; exact ⟨fun f e => by cases e; exact imageOk_mergeAt hstaged _ _ _, h2, h3, h4⟩
  | append f off w hk hs hf hh hl ho =>
    subst hf
    exact ⟨fun f e => by cases e; exact imageOk_append hstaged hh ho hl, h2, h3, h4⟩
  | damage f hk hs hf => subst hf; exact ⟨fun f e => by cases e; exact hstaged, h2, h3, h4⟩
  | arm f hf ha => exact ⟨nofun, fun img e => by cases e; exact h1 f hf, h3, h4⟩
  | coalesce f armed c hf ha =>
    exact ⟨nofun, fun img e => by cases e; exact imageOk_coalesce (h2 armed ha) (h1 f hf).2, h3, h4⟩
  | discard | drainOutput => exact hx.of_subset rfl (.inl rfl) (by simp) (.inr (.inr rfl)) rfl
  | swap c hs => exact hx.of_subset (by simp) (by simp) (by simp) (by simp) (by simp)
  | behind | stale | enterSafe | resume | countHold | hold | unhold | drainInput => exact hx

/-! ### Loads into a safe image (R133, R135) -/

/-- A load keeps the offsets of the image, or adds its own at the end. -/
theorem loadEntry_offsets (img : List SafeEntry) (e : SafeEntry) :
    (loadEntry img e).map SafeEntry.offset =
      if e.offset ∈ img.map SafeEntry.offset then img.map SafeEntry.offset else img.map SafeEntry.offset ++ [e.offset] := by
  have hany : (img.any fun x => x.offset == e.offset) = true ↔ e.offset ∈ img.map SafeEntry.offset := by
    simp only [List.any_eq_true, beq_iff_eq, List.mem_map]
  unfold loadEntry
  by_cases h : e.offset ∈ img.map SafeEntry.offset
  · rw [if_pos (hany.mpr h), if_pos h, List.map_map]
    refine List.map_congr_left fun x _ => ?_
    simp only [Function.comp]
    split <;> rfl
  · rw [if_neg (by rwa [hany]), if_neg h, List.map_append, List.map_singleton]

theorem applyLoads_cons (img : List SafeEntry) (e : SafeEntry) (loads : List SafeEntry) :
    applyLoads img (e :: loads) = applyLoads (loadEntry img e) loads := rfl

theorem applyLoads_nodup {img : List SafeEntry} (loads : List SafeEntry) (h : (img.map SafeEntry.offset).Nodup) :
    ((applyLoads img loads).map SafeEntry.offset).Nodup := by
  induction loads generalizing img with
  | nil => exact h
  | cons e loads ih =>
    rw [applyLoads_cons]
    refine ih ?_
    rw [loadEntry_offsets]
    split
    · exact h
    · next hn =>
      exact List.nodup_append.mpr ⟨h, List.nodup_singleton _, fun o ho o' ho' he =>
        hn (by rw [List.mem_singleton.mp ho'] at he; exact he ▸ ho)⟩

/-- Every offset of the loaded image was there, or is one of a load. -/
theorem mem_applyLoads_offsets {img loads : List SafeEntry} {o : Byte} (h : o ∈ (applyLoads img loads).map SafeEntry.offset) :
    o ∈ img.map SafeEntry.offset ∨ o ∈ loads.map SafeEntry.offset := by
  induction loads generalizing img with
  | nil => exact .inl h
  | cons e loads ih =>
    rw [applyLoads_cons] at h
    rcases ih h with h | h
    · rw [loadEntry_offsets] at h
      split at h
      · exact .inl h
      · rcases List.mem_append.mp h with h | h
        · exact .inl h
        · rw [List.mem_singleton.mp h]; exact .inr List.mem_cons_self
    · exact .inr (List.mem_cons_of_mem _ h)

/-- The image that a LOAD_SAFE makes keeps the law of safe images. -/
theorem loadedImage_ok {x : Group} {first : Byte} {loads : List SafeEntry} (hx : ImagesOk x)
    (hl : ∀ l ∈ loads, l.offset.toNat < x.record.length) :
    ((loadedImage x first loads).map SafeEntry.offset).Nodup ∧
      ∀ e ∈ loadedImage x first loads, e.offset.toNat < x.record.length := by
  have hold : (((if first = 1 then [] else x.safeImage.getD []) : List SafeEntry).map SafeEntry.offset).Nodup ∧
      ∀ e ∈ (if first = 1 then [] else x.safeImage.getD [] : List SafeEntry), e.offset.toNat < x.record.length := by
    split
    · exact ⟨List.nodup_nil, fun _ h => absurd h List.not_mem_nil⟩
    · cases hs : x.safeImage with
      | none => exact ⟨List.nodup_nil, fun _ h => absurd h List.not_mem_nil⟩
      | some l => exact hx.2.2.2 l hs
  refine ⟨applyLoads_nodup loads hold.1, fun e he => ?_⟩
  rcases mem_applyLoads_offsets (List.mem_map_of_mem he) with h | h
  · obtain ⟨d, hd, ho⟩ := List.mem_map.mp h
    rw [← ho]; exact hold.2 d hd
  · obtain ⟨d, hd, ho⟩ := List.mem_map.mp h
    rw [← ho]; exact hl d hd

theorem Group.Changes.imagesOk {i : Instr} {s : State} {x y : Group} {d : Stores} (h : x.Changes i s y d)
    (hx : ImagesOk x) : ImagesOk y := by
  obtain ⟨h1, h2, h3, h4⟩ := id hx
  cases h with
  | moves _ n hm => exact hm.imagesOk hx
  | commit img hk hs ha => exact ⟨h1, nofun, fun _ e => by cases e; exact h2 img ha, h4⟩
  | loadSafe tag b first loads _ _ hl => exact ⟨h1, h2, h3, fun l e => by cases e; exact loadedImage_ok hx hl⟩
  | safe => exact hx.of_subset rfl (.inr rfl) (.inr rfl) (.inr (.inl rfl)) rfl
  | complete => exact hx.of_subset rfl (.inr rfl) (.inr rfl) (.inl rfl) rfl
  | enableOutput => exact hx.of_subset rfl (.inl rfl) (.inl rfl) (.inl rfl) rfl
  | disableOutput => exact hx.of_subset rfl (.inl rfl) (.inl rfl) (.inr (.inr rfl)) rfl
  | capture | fill | captured | drained | enableInput | disableInput => exact hx

theorem imagesOk_of_defined (r : GroupRecord) : ImagesOk (Group.defined r) := ⟨nofun, nofun, nofun, nofun⟩

theorem imagesOk_of_abandoned {x : Group} (h : ImagesOk x) : ImagesOk x.abandoned := by
  rcases x.abandoned_cases with ⟨-, e⟩ | ⟨-, e⟩ <;> rw [e]
  · exact h
  · exact h.of_subset rfl (.inl rfl) (.inl rfl) (.inl rfl) rfl

/-! ### The stale count (R123, R124) -/

/-- The law of a group's stale count. -/
def StaleOk (x : Group) : Prop :=
  x.record.kind = .output →
    x.staleCount ≤ x.record.staleLimit ∧
    (x.state = .live → x.record.staleLimit = 0 ∨ x.staleCount < x.record.staleLimit) ∧
    (x.state = .safe → x.record.staleLimit ≠ 0 ∧ x.staleCount = x.record.staleLimit)

theorem staleOk_of_zero {x : Group} (h : x.staleCount = 0) (hs : x.state ≠ .safe) : StaleOk x := by
  refine fun _ => ⟨by rw [h]; bv_omega, fun _ => ?_, fun e => absurd e hs⟩
  rw [h]
  by_cases h0 : x.record.staleLimit = 0
  · exact .inl h0
  · exact .inr (by bv_omega)

/-- A group that is neither LIVE nor SAFE keeps its stale count within the limit. -/
theorem StaleOk.leave {x y : Group} (hx : StaleOk x) (hr : y.record = x.record) (hc : y.staleCount = x.staleCount)
    (hl : y.state ≠ .live) (hs : y.state ≠ .safe) : StaleOk y := by
  intro hk
  rw [hr] at hk ⊢
  exact ⟨by rw [hc]; exact (hx hk).1, fun e => absurd e hl, fun e => absurd e hs⟩

theorem Group.Moves.staleOk {free n : Nat} {x y : Group} (h : x.Moves free y n) (hx : StaleOk x) : StaleOk y := by
  cases h with
  | stale hs h0 hn =>
    intro hk
    obtain ⟨-, hlive, -⟩ := hx hk
    have hlt := (hlive hs).resolve_left h0
    have : x.staleCount + 1 < x.record.staleLimit := by bv_omega
    exact ⟨by simp only; bv_omega, fun _ => .inr this, fun e => absurd (hs.symm.trans e) nofun⟩
  | enterSafe b hk hs h0 hn => exact fun _ => ⟨by simp only [hn]; exact BitVec.le_refl _, nofun, fun _ => ⟨h0, hn⟩⟩
  | resume => exact staleOk_of_zero rfl nofun
  | drainOutput | drainInput => exact hx.leave rfl rfl nofun nofun
  | swap c hs =>
    have hc : ({ x with holdCount := c } : Group).swapPending.staleCount = x.staleCount := by
      unfold Group.swapPending; split <;> rfl
    intro hk
    simp only [Group.swapPending_record, Group.swapPending_state, hc] at hk ⊢
    exact hx hk
  | merge | append | damage | discard | arm | coalesce | behind | countHold | hold | unhold => exact hx

theorem Group.Changes.staleOk {i : Instr} {s : State} {x y : Group} {d : Stores} (h : x.Changes i s y d)
    (hx : StaleOk x) : StaleOk y := by
  cases h with
  | moves _ n hm => exact hm.staleOk hx
  | commit => exact staleOk_of_zero rfl nofun
  | enableOutput => exact staleOk_of_zero rfl nofun
  | complete c =>
    by_cases hs : x.state = .draining
    · exact hx.leave rfl rfl (by simp [hs]) (by simp [hs])
    · simp only [if_neg hs]; exact hx
  | enableInput hk => exact fun h => absurd (hk.symm.trans h) nofun
  | drained | disableOutput | disableInput => exact hx.leave rfl rfl nofun nofun
  | safe | capture | fill | captured | loadSafe => exact hx

theorem staleOk_of_defined (r : GroupRecord) : StaleOk (Group.defined r) := staleOk_of_zero rfl nofun

theorem staleOk_of_abandoned {x : Group} (h : StaleOk x) : StaleOk x.abandoned := by
  rcases x.abandoned_cases with ⟨-, e⟩ | ⟨-, e⟩ <;> rw [e]
  · exact h
  · exact h.leave rfl rfl nofun nofun

/-! ### Holds and banks (R139, R157) -/

/-- The law of a group's snapshot items. -/
def HoldOk (x : Group) : Prop :=
  x.record.kind = .input →
    x.state ≠ .safe ∧
    (x.state = .live → x.back.isPending = true → x.held = true) ∧
    (x.state = .draining → x.back.isPending = false) ∧
    (x.state = .disabled → x.front = none ∧ x.back.isPending = false ∧ x.held = false)

theorem holdOk_of_output {x : Group} (h : x.record.kind = .output) : HoldOk x := fun hi => absurd (h.symm.trans hi) nofun

/-- A group without banks and hold keeps the law in every state but SAFE. -/
theorem holdOk_of_empty {x : Group} (hs : x.state ≠ .safe) (hf : x.front = none) (hb : x.back.isPending = false)
    (hh : x.held = false) : HoldOk x :=
  fun _ => ⟨hs, fun _ h => absurd (hb.symm.trans h) nofun, fun _ => hb, fun _ => ⟨hf, hb, hh⟩⟩

/-- After a swap no back bank is PENDING. -/
theorem Group.swapPending_isPending (x : Group) : x.swapPending.back.isPending = false := by
  unfold Group.swapPending
  split
  · rfl
  · next h => rw [h]; rfl
  · next h => rw [h]; rfl

theorem Group.Moves.holdOk {free n : Nat} {x y : Group} (h : x.Moves free y n) (hx : HoldOk x) : HoldOk y := by
  cases h with
  | enterSafe b hk | resume hk | drainOutput hk => exact holdOk_of_output hk
  | hold hs =>
    intro hk
    obtain ⟨h1, -, h3, -⟩ := hx hk
    exact ⟨h1, fun _ _ => rfl, h3, fun e => absurd e hs⟩
  | swap c hs =>
    have hb := ({ x with holdCount := c } : Group).swapPending_isPending
    intro hk
    exact ⟨by simp [hs], fun _ h => absurd (hb.symm.trans h) nofun, fun _ => hb, fun e => by simp [hs] at e⟩
  | unhold h =>
    intro hk
    obtain ⟨h1, h2, h3, h4⟩ := hx hk
    exact ⟨h1, fun e hp => absurd e (h (h2 e hp)), h3, fun e => ⟨(h4 e).1, (h4 e).2.1, rfl⟩⟩
  | drainInput bk hk hs hb =>
    have hbk : bk.isPending = false := by
      rcases hb with ⟨rfl, -⟩ | ⟨rfl, h⟩
      · rfl
      · exact h
    exact fun _ => ⟨nofun, nofun, fun _ => hbk, nofun⟩
  | merge | append | damage | discard | arm | coalesce | behind | stale | countHold => exact hx

theorem Group.Changes.holdOk {i : Instr} {s : State} {x y : Group} {d : Stores} (h : x.Changes i s y d)
    (hx : HoldOk x) : HoldOk y := by
  cases h with
  | moves _ n hm => exact hm.holdOk hx
  | commit img hk | complete c hk | enableOutput hk | disableOutput hk => exact holdOk_of_output hk
  | fill ws =>
    intro hk
    obtain ⟨h1, -, -, h4⟩ := hx hk
    exact ⟨h1, nofun, fun _ => rfl, fun e => ⟨(h4 e).1, rfl, (h4 e).2.2⟩⟩
  | captured front back hs hb =>
    intro hk
    obtain ⟨h1, -, -, h4⟩ := hx hk
    rcases hb with ⟨rfl, rfl⟩ | ⟨hl, hh⟩
    · exact ⟨h1, nofun, fun _ => rfl, fun e => ⟨(h4 e).1, rfl, (h4 e).2.2⟩⟩
    · exact ⟨h1, fun _ => hh, fun e => absurd e hs, fun e => absurd (hl.symm.trans e) nofun⟩
  | drained | disableInput => exact holdOk_of_empty nofun rfl rfl rfl
  | enableInput => exact holdOk_of_empty nofun rfl rfl rfl
  | safe | capture | loadSafe => exact hx

theorem holdOk_of_defined (r : GroupRecord) : HoldOk (Group.defined r) := holdOk_of_empty nofun rfl rfl rfl

theorem holdOk_of_abandoned {x : Group} (h : HoldOk x) : HoldOk x.abandoned := by
  rcases x.abandoned_cases with ⟨-, e⟩ | ⟨-, e⟩ <;> rw [e]
  · exact h
  · exact holdOk_of_empty nofun rfl rfl rfl

end Sys2Proof.Machine
end

section
/-! PROOFS. The obligation about the laws of each group (R8, R123, R124, R133, R139). -/

namespace Sys2Proof.Machine

open Sys2Proof.Safety

/-- Settles O52: each of the three is a law of each group by itself, which definitions establish and every act keeps. -/
theorem groupLawsAreKept : Obligations.GroupLawsAreKept := by
  intro s t hstep
  refine ⟨fun h => ?images, fun h => ?stale, fun h => ?hold⟩
  case images =>
    rw [imageLaw_iff] at h ⊢
    exact step_keeps_groups (fun _ _ _ _ _ hc => hc.imagesOk) (fun _ _ => imagesOk_of_defined _)
      (fun _ => imagesOk_of_abandoned) hstep h
  case stale =>
    exact step_keeps_groups (Q := StaleOk) (fun _ _ _ _ _ hc => hc.staleOk) (fun _ _ => staleOk_of_defined _)
      (fun _ => staleOk_of_abandoned) hstep h
  case hold =>
    exact step_keeps_groups (Q := HoldOk) (fun _ _ _ _ _ hc => hc.holdOk) (fun _ _ => holdOk_of_defined _)
      (fun _ => holdOk_of_abandoned) hstep h

end Sys2Proof.Machine
end

section
/-! SUPPORT. The balances of the three stores (R34, R132, R140): what the groups hold in total, and that an act takes from a store what
it gives to a group. -/

namespace Sys2Proof.Machine

open Sys2Proof.Safety

/-! ### Totals over the slots -/

/-- The sum of an amount over the groups of all slots. -/
def State.total (f : Group → Nat) (s : State) : Nat := (s.groups.toList.map (fun o => o.elim 0 f)).sum

theorem list_sum_map_set {α : Type} (f : α → Nat) : ∀ (l : List α) (k : Nat) (a : α) (h : k < l.length),
    ((l.set k a).map f).sum + f l[k] = (l.map f).sum + f a
  | b :: l, 0, a, _ => by simp; omega
  | b :: l, k + 1, a, h => by
    have := list_sum_map_set f l k a (by simpa using h)
    simp only [List.set_cons_succ, List.map_cons, List.sum_cons, List.getElem_cons_succ]
    omega

/-- When one slot changes, the total changes by the amounts of that slot. -/
theorem total_of_groups_set {f : Group → Nat} {s t : State} {g : GroupNo} {o : Option Group}
    (h : t.groups = s.groups.set g o) : t.total f + (s.group g).elim 0 f = s.total f + o.elim 0 f := by
  have hs := list_sum_map_set (fun o : Option Group => o.elim 0 f) s.groups.toList g o (by simp)
  simp only [Vector.getElem_toList] at hs
  rw [State.total, h, Vector.toList_set]
  exact hs

theorem total_of_groups_eq {f : Group → Nat} {s t : State} (h : t.groups = s.groups) : t.total f = s.total f := by
  rw [State.total, State.total, h]

/-- A total is 0 when every group counts 0. -/
theorem total_eq_zero {f : Group → Nat} {s : State} (h : ∀ g x, s.group g = some x → f x = 0) : s.total f = 0 := by
  refine List.sum_eq_zero fun n hn => ?_
  obtain ⟨o, ho, rfl⟩ := List.mem_map.mp hn
  obtain ⟨k, hk, rfl⟩ := List.mem_iff_getElem.mp ho
  simp only [Vector.length_toList] at hk
  rw [Vector.getElem_toList]
  rcases hx : s.groups[k] with - | x
  · rfl
  · exact h ⟨k, hk⟩ x hx

/-- The abandonment keeps the total of an amount that every group keeps. -/
theorem total_of_abandoned {f : Group → Nat} {s t : State} (h : t.groups = s.groups.map (fun o => o.map Group.abandoned))
    (hf : ∀ x, f x.abandoned = f x) : t.total f = s.total f := by
  rw [State.total, h, Vector.toList_map, List.map_map]
  refine congrArg List.sum (List.map_congr_left fun o _ => ?_)
  cases o with
  | none => rfl
  | some x => exact hf x

/-- The words of the snapshot store that a group counts for: those of an enabled input group (R140). -/
def Group.inputWords (x : Group) : Nat := if x.enabled && decide (x.record.kind = .input) then x.record.length else 0

theorem heldStage_eq_total (s : State) : heldStage s = s.total Group.stageEntries := rfl

theorem heldSafe_eq_total (s : State) : heldSafe s = s.total Group.safeEntries := rfl

theorem enabledInputWords_eq_total (s : State) : s.enabledInputWords = s.total Group.inputWords := by
  unfold State.enabledInputWords State.total
  refine congrArg List.sum (List.map_congr_left fun o _ => ?_)
  cases o <;> rfl

/-! ### A balance -/

/-- A store balances with an amount of the groups when each act gives to the one what it takes from the other. -/
theorem GroupsAct.balance {f : Group → Nat} {free : Stores → Nat} {k limit : Nat} {i : Instr} {s t : State}
    (h : GroupsAct i s t) (hb : free s.stores + k * s.total f = limit)
    (hchange : ∀ g x y d, s.group g = some x → x.Changes i s y d → free d + k * f y = free s.stores + k * f x)
    (hdefine : ∀ g r, s.definable g = true →
      free { s.stores with safe := s.freeSafe + s.slotSafeEntries g } + k * f (Group.defined r) =
        free s.stores + k * (s.group g).elim 0 f)
    (hdelete : ∀ g x, s.group g = some x → x.state = .disabled →
      free { s.stores with safe := s.freeSafe + x.safeEntries } = free s.stores + k * f x)
    (habandon : t.groups = s.groups.map (fun o => o.map Group.abandoned) →
      free { s.stores with stage := Config.stageEntries, snapshot := Config.snapshotWords } + k * t.total f = limit) :
    free t.stores + k * t.total f = limit := by
  rcases h with ⟨hg, hst⟩ | ⟨g, x, y, hx, hg, hc⟩ | ⟨g, tag, c, -, hd, -, hg, hst⟩ | ⟨g, x, tag, b, -, hx, hs, hg, hst⟩ |
    ⟨hg, hst⟩
  · rw [hst, total_of_groups_eq hg]; exact hb
  · have htot := congrArg (k * ·) (total_of_groups_set (f := f) hg)
    have hch := hchange g x y _ hx hc
    simp only [hx, Option.elim_some, Nat.mul_add] at htot
    omega
  · have htot := congrArg (k * ·) (total_of_groups_set (f := f) hg)
    have hde := hdefine g (recordOfFields c) hd
    simp only [Option.elim_some, Nat.mul_add] at htot
    rw [hst]
    omega
  · have htot := congrArg (k * ·) (total_of_groups_set (f := f) hg)
    have hde := hdelete g x hx hs
    simp only [hx, Option.elim_some, Option.elim_none, Nat.mul_add] at htot
    rw [hst]
    omega
  · rw [hst]; exact habandon hg

/-! ### The stage pool (R34) -/

theorem staged_length (x : Group) : (x.filling.getD Filling.fresh).entries.length = x.filling.elim 0 (fun f => f.entries.length) := by
  cases x.filling <;> rfl

/-- A DISABLED group holds no stage entry (R7). -/
theorem stageEntries_of_disabled {x : Group} (h : SlotsOfState x) (hs : x.state = .disabled) : x.stageEntries = 0 := by
  obtain ⟨h1, h2, h3⟩ := h.1 hs
  rw [Group.stageEntries, h1, h2, h3]
  rfl

theorem Group.swapPending_stageEntries (x : Group) : x.swapPending.stageEntries = x.stageEntries := by
  simp [Group.stageEntries]

/-- A move of a group takes from the pool what it stages and gives back what it drops. -/
theorem Group.Moves.stageEntries {free n : Nat} {x y : Group} (h : x.Moves free y n) :
    n + y.stageEntries = free + x.stageEntries := by
  have hlen := staged_length x
  cases h with
  | merge f off w hk hs hf | damage f hk hs hf => subst hf; simp [Group.stageEntries, hlen]
  | append f off w hk hs hf hh hl ho hp => subst hf; simp [Group.stageEntries, hlen]; omega
  | discard f d r hf | arm f hf ha => simp [Group.stageEntries, *]; try omega
  | coalesce f armed c hf ha =>
    have := Image.coalesce_length_le armed f.entries
    simp [Group.stageEntries, hf, ha]
    omega
  | drainOutput => simp only [Group.stageEntries, Option.elim_none]; omega
  | swap c hs => exact congrArg (free + ·) (({ x with holdCount := c } : Group).swapPending_stageEntries)
  | behind | stale | enterSafe | resume | countHold | hold | unhold | drainInput => rfl

theorem Group.Changes.stageEntries {i : Instr} {s : State} {x y : Group} {d : Stores} (h : x.Changes i s y d)
    (hx : SlotsOfState x) : d.stage + 1 * y.stageEntries = s.freeStage + 1 * x.stageEntries := by
  rw [Nat.one_mul, Nat.one_mul]
  cases h with
  | moves _ n hm => exact hm.stageEntries
  | commit img hk hs ha hc => simp [Group.stageEntries, ha, hc, Committing.stageEntries, State.stores]
  | safe hk hs hc => simp [Group.stageEntries, hc, Committing.stageEntries, State.stores]
  | complete c hk => simp only [Group.stageEntries, Option.elim_none]; omega
  | enableOutput hk hs =>
    obtain ⟨h1, h2, h3⟩ := hx.1 hs
    simp [Group.stageEntries, Group.enableOutput, h1, h2, h3, State.stores]
  | disableOutput hk hc => simp only [Group.stageEntries, Option.elim_none]; omega
  | capture | fill | captured | drained | enableInput | disableInput | loadSafe => rfl

/-- The pool's law and the slots of each state, kept by an act. -/
theorem Act.poolInv {i : Instr} {s t : State} (h : Act i s t) (hp : PoolInv s) : PoolInv t := by
  obtain ⟨hlaw, hslots⟩ := hp
  have hafter : ∀ g : GroupNo, ∀ x ∈ t.group g, SlotsOfState x :=
    h.groupsAct.keeps (fun _ _ _ hc => hc.slots) (fun _ _ => slots_of_defined _) (fun _ => slots_of_abandoned) hslots
  refine ⟨?_, hafter⟩
  have hb : s.stores.stage + 1 * s.total Group.stageEntries = Config.stageEntries := by
    rw [Nat.one_mul, ← heldStage_eq_total]; exact hlaw
  have hbal := h.groupsAct.balance (free := Stores.stage) hb (fun g x y d hx hc => hc.stageEntries (hslots g x hx))
    (fun g r hd => ?define) (fun g x hx hs => ?delete) (fun hg => ?abandon)
  case define =>
    have hzero : (s.group g).elim 0 Group.stageEntries = 0 := by
      rcases hx : s.group g with - | x
      · rfl
      · exact stageEntries_of_disabled (hslots g x hx) (Group.state_of_not_enabled (by simpa [State.definable, hx] using hd))
    rw [hzero]
    rfl
  case delete =>
    rw [stageEntries_of_disabled (hslots g x hx) hs]
    rfl
  case abandon =>
    rw [total_eq_zero fun g x hx => ?_]
    · rfl
    · refine stageEntries_of_disabled (hafter g x hx) ?_
      rw [group_of_groups_map hg] at hx
      obtain ⟨y, -, rfl⟩ := Option.map_eq_some_iff.mp hx
      rcases y.abandoned_cases with ⟨hd, e⟩ | ⟨-, e⟩ <;> rw [e]
      exact hd
  rw [Nat.one_mul] at hbal
  exact hbal

/-! ### The safe store (R132) -/

theorem Group.Moves.safeEntries {free n : Nat} {x y : Group} (h : x.Moves free y n) : y.safeEntries = x.safeEntries := by
  rw [Group.safeEntries, Group.safeEntries, h.safeImage]

theorem Group.Changes.safeEntries {i : Instr} {s : State} {x y : Group} {d : Stores} (h : x.Changes i s y d) :
    d.safe + 1 * y.safeEntries = s.freeSafe + 1 * x.safeEntries := by
  rw [Nat.one_mul, Nat.one_mul]
  cases h with
  | moves _ n hm => rw [hm.safeEntries]; rfl
  | loadSafe tag b first loads hi hs hl hf =>
    show s.freeSafe + x.safeEntries - (loadedImage x first loads).length + (loadedImage x first loads).length = _
    omega
  | _ => rfl

theorem Act.safeStoreLaw {i : Instr} {s t : State} (h : Act i s t) (hp : SafeStoreLaw s) : SafeStoreLaw t := by
  have hb : s.stores.safe + 1 * s.total Group.safeEntries = Config.safeEntries := by
    rw [Nat.one_mul, ← heldSafe_eq_total]; exact hp
  have hbal := h.groupsAct.balance (free := Stores.safe) hb (fun g x y d hx hc => hc.safeEntries)
    (fun g r hd => ?define) (fun g x hx hs => ?delete) (fun hg => ?abandon)
  case define => rw [Nat.one_mul, Nat.one_mul]; rfl
  case delete => rw [Nat.one_mul]; rfl
  case abandon =>
    rw [total_of_abandoned hg fun x => by rw [Group.safeEntries, Group.safeEntries, x.abandoned_safeImage]]
    exact hb
  rw [Nat.one_mul] at hbal
  exact hbal

/-! ### The snapshot store (R140) -/

theorem inputWords_of_output {x : Group} (h : x.record.kind = .output) : x.inputWords = 0 := by
  simp [Group.inputWords, h]

theorem inputWords_of_disabled {x : Group} (h : x.state = .disabled) : x.inputWords = 0 := by
  simp [Group.inputWords, Group.enabled, h]

theorem inputWords_of_enabled {x : Group} (hk : x.record.kind = .input) (h : x.state ≠ .disabled) :
    x.inputWords = x.record.length := by
  simp [Group.inputWords, Group.enabled, h, hk]

theorem enabled_of_active {x : Group} (hs : x.state = .live ∨ x.state = .safe) : x.state ≠ .disabled := by
  rcases hs with hs | hs <;> simp [hs]

/-- A group with the same record counts the same when it is an output group, or enabled as before. -/
theorem inputWords_congr {x y : Group} (hr : y.record = x.record)
    (h : x.record.kind = .output ∨ (y.state ≠ .disabled ↔ x.state ≠ .disabled)) : y.inputWords = x.inputWords := by
  rcases h with hk | hs
  · rw [inputWords_of_output hk, inputWords_of_output (hr ▸ hk)]
  · have he : y.enabled = x.enabled := by simp only [Group.enabled, hs]
    rw [Group.inputWords, Group.inputWords, he, hr]

theorem Group.Moves.inputWords {free n : Nat} {x y : Group} (h : x.Moves free y n) : y.inputWords = x.inputWords := by
  refine inputWords_congr h.record ?_
  cases h with
  | enterSafe b hk | resume hk | drainOutput hk => exact .inl hk
  | drainInput bk hk hs => exact .inr ⟨fun _ => enabled_of_active hs, fun _ => nofun⟩
  | swap c hs => exact .inr (by simp)
  | merge | append | damage | discard | arm | coalesce | behind | stale | countHold | hold | unhold => exact .inr .rfl

theorem Group.Changes.inputWords {i : Instr} {s : State} {x y : Group} {d : Stores} (h : x.Changes i s y d)
    (hlaw : SnapshotLaw s) : d.snapshot + 2 * y.inputWords = s.freeSnapshot + 2 * x.inputWords := by
  have hrec := h.record
  cases h with
  | moves _ n hm => rw [hm.inputWords]; rfl
  | commit img hk | complete c hk | enableOutput hk | disableOutput hk => rw [inputWords_congr hrec (.inl hk)]; rfl
  | drained hk hs => rw [inputWords_of_enabled hk (by simp [hs]), inputWords_of_disabled rfl]; rfl
  | disableInput hk hs => rw [inputWords_of_enabled hk (enabled_of_active hs), inputWords_of_disabled rfl]; rfl
  | enableInput hk hs hw =>
    rw [inputWords_of_disabled hs, inputWords_of_enabled (x := x.enableInput) hk nofun]
    show s.freeSnapshot - 2 * x.record.length + 2 * x.record.length = s.freeSnapshot + 2 * 0
    have : Config.snapshotWords = 2 * Config.inputWords := rfl
    simp only [SnapshotLaw] at hlaw
    omega
  | safe | capture | fill | captured | loadSafe => rfl

theorem Act.snapshotLaw {i : Instr} {s t : State} (h : Act i s t) (hp : SnapshotLaw s) : SnapshotLaw t := by
  have hb : s.stores.snapshot + 2 * s.total Group.inputWords = Config.snapshotWords := by
    rw [← enabledInputWords_eq_total]; exact hp
  have hbal := h.groupsAct.balance (free := Stores.snapshot) hb (fun g x y d hx hc => hc.inputWords hp)
    (fun g r hd => ?define) (fun g x hx hs => ?delete) (fun hg => ?abandon)
  case define =>
    have hzero : (s.group g).elim 0 Group.inputWords = 0 := by
      rcases hx : s.group g with - | x
      · rfl
      · exact inputWords_of_disabled (Group.state_of_not_enabled (by simpa [State.definable, hx] using hd))
    rw [hzero, inputWords_of_disabled (x := Group.defined r) rfl]
  case delete => rw [inputWords_of_disabled hs]; rfl
  case abandon =>
    have hzero : t.total Group.inputWords = 0 := total_eq_zero fun g x hx => inputWords_of_disabled ?_
    · rw [hzero]; rfl
    rw [group_of_groups_map hg] at hx
    obtain ⟨y, -, rfl⟩ := Option.map_eq_some_iff.mp hx
    rcases y.abandoned_cases with ⟨hd, e⟩ | ⟨-, e⟩ <;> rw [e]
    exact hd
  rw [← enabledInputWords_eq_total] at hbal
  exact hbal

end Sys2Proof.Machine
end

section
/-! SUPPORT. The laws of the event queue, of the link and of the streak (R118, R164, R171, R182). -/

namespace Sys2Proof.Machine

open Sys2Proof.Safety

/-- Outside the RESET input ALERT tells whether the queue has something to report; a raised event keeps this (R165 to R171). -/
theorem eventLaw_raise {s : State} (h0 : s.resetAsserted = false) (h : EventLaw s) (e : EventRecord) :
    EventLaw (s.raise e) := by
  obtain ⟨hlen, halert⟩ := h
  show (s.events.raise e).records.length ≤ _ ∧ ((s.events.raise e).alert = true ↔ s.resetAsserted = false ∧
    ((s.events.raise e).records ≠ [] ∨ (s.events.raise e).dropCount ≠ 0))
  rcases s.events.raise_cases e with ⟨-, e⟩ | ⟨-, hroom, e⟩ | ⟨-, -, e⟩ <;> rw [e]
  · exact ⟨hlen, halert⟩
  · exact ⟨by simpa using hroom, by simp [h0]⟩
  · exact ⟨hlen, iff_of_true rfl ⟨h0, .inr (satSucc16_ne_zero _)⟩⟩

theorem Act.eventLaw {i : Instr} {s t : State} (h : Act i s t) (h0 : s.resetAsserted = false) (he : EventLaw s) :
    EventLaw t := by
  cases h with
  | raise e => exact eventLaw_raise h0 he e
  | remove n =>
    refine ⟨?_, ?_⟩
    · show (s.events.records.drop n).length ≤ _
      rw [List.length_drop]
      exact (Nat.sub_le _ _).trans he.1
    · simp [EventQueue.remove, h0]
  | clear => exact ⟨Nat.zero_le _, by simp [EventQueue.clear]⟩
  | _ => exact he

theorem Act.responseLaw {i : Instr} {s t : State} (h : Act i s t) (hr : ResponseLaw s) : ResponseLaw t := by
  cases h with
  | link l hl ht =>
    refine ⟨?_, ?_⟩
    · rcases hl with e | h
      · show ResponseOk l.response
        rw [e]; exact hr.1
      · exact h
    · show ResponseOk l.transmit
      rcases ht with e | e <;> rw [e]
      · exact hr.2
      · exact hr.1
  | _ => exact hr

theorem Act.streakLaw {i : Instr} {s t : State} (h : Act i s t) (hs : StreakLaw s) : StreakLaw t := by
  cases h with
  | grantEngine u n hp hu hn =>
    show n ≤ _
    rcases hn with rfl | ⟨hlt, hn⟩
    · exact Nat.zero_le _
    · exact hn.trans hlt
  | grantHost | abandon => exact Nat.zero_le _
  | _ => exact hs

theorem total_of_reset (f : Group → Nat) (p : List Instr) : ({ State.reset with pending := p } : State).total f = 0 :=
  total_eq_zero fun g x hx => by rw [group_of_reset] at hx; cases hx

end Sys2Proof.Machine
end

section
/-! PROOFS. The obligations about the stage pool, the two other stores, the event queue, the link and the streak. -/

namespace Sys2Proof.Machine

open Sys2Proof.Safety

theorem poolInv_of_reset (p : List Instr) : PoolInv { State.reset with pending := p } := by
  refine ⟨?_, fun g x hx => by rw [group_of_reset] at hx; cases hx⟩
  rw [PoolLaw, heldStage_eq_total, total_of_reset]
  rfl

/-- Settles O51: what an act takes from the pool it gives to one group's images. -/
theorem stagePoolIsKept : Obligations.StagePoolIsKept := fun _ _ h hstep =>
  step_keeps (P := PoolInv) (fun _ _ _ _ ha => ha.poolInv) poolInv_of_reset (fun _ _ e h => by cases e; exact h)
    (fun _ _ h => h) h hstep

theorem safeStoreLaw_of_reset (p : List Instr) : SafeStoreLaw { State.reset with pending := p } := by
  rw [SafeStoreLaw, heldSafe_eq_total, total_of_reset]
  rfl

theorem snapshotLaw_of_reset (p : List Instr) : SnapshotLaw { State.reset with pending := p } := by
  rw [SnapshotLaw, enabledInputWords_eq_total, total_of_reset]
  rfl

/-- Settles O53: each of the five laws is kept by every act. -/
theorem storesQueueAndLinkAreKept : Obligations.StoresQueueAndLinkAreKept := by
  intro s t hstep
  refine ⟨fun h => ?safe, fun h => ?snapshot, fun h => ?events, fun h => ?response, fun h => ?streak⟩
  case safe =>
    exact step_keeps (P := SafeStoreLaw) (fun _ _ _ _ ha => ha.safeStoreLaw) safeStoreLaw_of_reset
      (fun _ _ e h => by cases e; exact h) (fun _ _ h => h) h hstep
  case snapshot =>
    exact step_keeps (P := SnapshotLaw) (fun _ _ _ _ ha => ha.snapshotLaw) snapshotLaw_of_reset
      (fun _ _ e h => by cases e; exact h) (fun _ _ h => h) h hstep
  case events =>
    refine step_keeps (P := EventLaw) (fun _ _ _ h0 ha => ha.eventLaw h0) (fun p => ?_) (fun u v e h => ?_) (fun _ _ h => h) h hstep
    · exact ⟨Nat.zero_le _, by simp [State.reset, EventQueue.powerOn]⟩
    · cases e
      exact ⟨h.1, by simp⟩
  case response =>
    refine step_keeps (P := ResponseLaw) (fun _ _ _ _ ha => ha.responseLaw) (fun p => ?_) (fun _ _ e h => by cases e; exact h)
      (fun _ _ h => h) h hstep
    exact ⟨⟨Nat.zero_le _, fun _ => rfl⟩, ⟨Nat.zero_le _, fun _ => rfl⟩⟩
  case streak =>
    refine step_keeps (P := StreakLaw) (fun _ _ _ _ ha => ha.streakLaw) (fun p => ?_) (fun _ _ e h => ?_) (fun _ _ h => h) h hstep
    · exact Nat.zero_le _
    · cases e
      exact Nat.zero_le _

end Sys2Proof.Machine
end

section
/-! SUPPORT. Ranges and sequence words (R3, R53): what the checks of DEFINE_GROUP say of a record, and that they stay true. -/

namespace Sys2Proof.Machine

open Sys2Proof.Safety

/-! ### The checks of DEFINE_GROUP -/

theorem recordOfFields_length (f : GroupFields) : (recordOfFields f).length = f.length.toNat := by
  unfold recordOfFields; split <;> rfl

theorem recordOfFields_base (f : GroupFields) : (recordOfFields f).base = f.base := by
  unfold recordOfFields; split <;> rfl

theorem recordOfFields_of_output {f : GroupFields} (h : f.kind = 0) :
    (recordOfFields f).kind = .output ∧ (recordOfFields f).sealOffset = f.sealOffset := by
  unfold recordOfFields; rw [if_pos h]; exact ⟨rfl, rfl⟩

theorem recordOfFields_of_input {f : GroupFields} (h : f.kind ≠ 0) : (recordOfFields f).kind = .input ∧
    (recordOfFields f).stampOffset = if f.stampPresent = 1 then some f.stampOffset else none := by
  unfold recordOfFields; rw [if_neg h]; exact ⟨rfl, rfl⟩

/-- Fields that pass the checks 1 to 4 of R3 make a record within bounds. -/
theorem recordOk_of_checks {f : GroupFields} (hr : rangeFieldsValid f = true) (hk : kindFieldsValid f = true) :
    RecordOk (recordOfFields f) := by
  simp only [rangeFieldsValid, Bool.and_eq_true, decide_eq_true_eq] at hr
  obtain ⟨⟨⟨⟨⟨-, h1⟩, h256⟩, -⟩, halign⟩, htop⟩ := hr
  rw [RecordOk, recordOfFields_length, recordOfFields_base]
  refine ⟨halign, h1, h256, htop, fun hout => ?_, fun hin => ?_⟩
  · have h0 : f.kind = 0 := by
      by_contra h
      exact absurd (hout.symm.trans (recordOfFields_of_input h).1) nofun
    rw [(recordOfFields_of_output h0).2]
    simp only [kindFieldsValid, if_pos h0, Bool.and_eq_true, decide_eq_true_eq] at hk
    exact hk.1.1.1.1
  · have h0 : f.kind ≠ 0 := fun h => absurd (hin.symm.trans (recordOfFields_of_output h).1) nofun
    rw [(recordOfFields_of_input h0).2]
    simp only [kindFieldsValid, if_neg h0, Bool.and_eq_true, Bool.or_eq_true, decide_eq_true_eq] at hk
    intro o ho
    split at ho
    · next hp =>
      cases ho
      exact hk.2.resolve_left (by rw [hp]; decide)
    · cases ho

theorem overlaps_comm (r q : GroupRecord) : r.overlaps q = q.overlaps r := by
  unfold GroupRecord.overlaps; exact Bool.and_comm _ _

/-- The checks 6 to 8 of R3 are the same in both directions. -/
theorem clearOf_comm {r q : GroupRecord} (h : r.clearOf q = true) : q.clearOf r = true := by
  simp only [GroupRecord.clearOf, Bool.and_eq_true, Bool.or_eq_true, decide_eq_true_eq] at h ⊢
  obtain ⟨⟨⟨ho, hq⟩, hr⟩, hw⟩ := h
  refine ⟨⟨⟨by rw [overlaps_comm]; exact ho, hr⟩, hq⟩, ?_⟩
  by_cases hn : q.seqWord = none
  · exact .inl (by rw [hn]; rfl)
  · refine .inr fun e => ?_
    rcases hw with hw | hw
    · rw [Option.isNone_iff_eq_none] at hw
      exact hn (e.trans hw)
    · exact hw e.symm

theorem clearOfOthers_iff {s : State} {g : GroupNo} {r : GroupRecord} :
    s.clearOfOthers g r = true ↔ ∀ h, h ≠ g → ∀ y, s.group h = some y → r.clearOf y.record = true := by
  simp only [State.clearOfOthers, List.all_eq_true, List.mem_finRange, true_implies, Bool.or_eq_true, decide_eq_true_eq]
  refine forall_congr' fun h => ⟨fun hc hne y hy => ?_, fun hc => ?_⟩
  · have := hc.resolve_left hne
    rw [hy] at this
    exact this
  · by_cases hne : h = g
    · exact .inl hne
    · refine .inr ?_
      rcases hy : s.group h with - | y
      · rfl
      · exact hc hne y hy

/-! ### The law of ranges -/

theorem mem_of_record_eq {s t : State} {g : GroupNo} (h : (t.group g).map Group.record = (s.group g).map Group.record)
    {x : Group} (hx : t.group g = some x) : ∃ y, s.group g = some y ∧ y.record = x.record := by
  rw [hx] at h
  obtain ⟨y, hy, e⟩ := Option.map_eq_some_iff.mp h.symm
  exact ⟨y, hy, e⟩

/-- The law of ranges reads the records alone. -/
theorem rangeLaw_of_records {s t : State} (h : ∀ g, (t.group g).map Group.record = (s.group g).map Group.record)
    (hs : RangeLaw s) : RangeLaw t := by
  refine ⟨fun g x hx => ?_, fun g k hne x hx y hy => ?_⟩
  · obtain ⟨x', hx', e⟩ := mem_of_record_eq (h g) hx
    rw [← e]; exact hs.1 g x' hx'
  · obtain ⟨x', hx', e⟩ := mem_of_record_eq (h g) hx
    obtain ⟨y', hy', e'⟩ := mem_of_record_eq (h k) hy
    rw [← e, ← e']; exact hs.2 g k hne x' hx' y' hy'

/-- A slot takes a record that is within bounds and clear of the others. -/
theorem rangeLaw_set {s t : State} {g : GroupNo} {x : Group} (hg : t.groups = s.groups.set g (some x)) (hs : RangeLaw s)
    (hok : RecordOk x.record) (hseq : x.record.seqValid = true)
    (hclear : ∀ h, h ≠ g → ∀ y, s.group h = some y → x.record.clearOf y.record = true) : RangeLaw t := by
  have hread : ∀ k, t.group k = if g = k then some x else s.group k := group_of_groups_set hg
  refine ⟨fun k z hz => ?_, fun k l hne z hz w hw => ?_⟩
  · rw [hread] at hz
    split at hz
    · cases hz; exact ⟨hok, hseq⟩
    · exact hs.1 k z hz
  · rw [hread] at hz hw
    split at hz
    · next e =>
      subst e; cases hz
      rw [if_neg hne] at hw
      exact hclear l (Ne.symm hne) w hw
    · split at hw
      · next e =>
        subst e; cases hw
        exact clearOf_comm (hclear k hne z hz)
      · exact hs.2 k l hne z hz w hw

/-- A slot becomes UNDEFINED. -/
theorem rangeLaw_clear {s t : State} {g : GroupNo} (hg : t.groups = s.groups.set g none) (hs : RangeLaw s) : RangeLaw t := by
  have hread : ∀ k z, t.group k = some z → s.group k = some z := by
    intro k z hz
    rw [group_of_groups_set hg] at hz
    split at hz
    · cases hz
    · exact hz
  exact ⟨fun k z hz => hs.1 k z (hread k z hz), fun k l hne z hz w hw => hs.2 k l hne z (hread k z hz) w (hread l w hw)⟩

theorem Act.rangeLaw {i : Instr} {s t : State} (h : Act i s t) (hs : RangeLaw s) : RangeLaw t := by
  rcases h.groupsAct with ⟨hg, -⟩ | ⟨g, x, y, hx, hg, hc⟩ | ⟨g, tag, f, -, -, hv, hg, -⟩ | ⟨g, x, tag, b, -, -, -, hg, -⟩ | ⟨hg, -⟩
  · exact rangeLaw_of_records (fun k => by rw [group_of_groups_eq hg]) hs
  · refine rangeLaw_of_records (fun k => ?_) hs
    rw [group_of_groups_set hg]
    split
    · next e => subst e; rw [hx]; exact congrArg some hc.record
    · rfl
  · simp only [Bool.and_eq_true] at hv
    obtain ⟨⟨⟨hr, hk⟩, hseq⟩, hclear⟩ := hv
    exact rangeLaw_set hg hs (recordOk_of_checks hr hk) hseq (clearOfOthers_iff.mp hclear)
  · exact rangeLaw_clear hg hs
  · refine rangeLaw_of_records (fun k => ?_) hs
    rw [group_of_groups_map hg]
    cases s.group k with
    | none => rfl
    | some x => exact congrArg some x.abandoned_record

theorem rangeLaw_of_reset (p : List Instr) : RangeLaw { State.reset with pending := p } :=
  ⟨fun g x hx => by (rw [group_of_reset] at hx; cases hx), fun g k _ x hx => by (rw [group_of_reset] at hx; cases hx)⟩

end Sys2Proof.Machine
end

section
/-! PROOFS. The obligation about ranges and sequence words (R3, R53). -/

namespace Sys2Proof.Machine

open Sys2Proof.Safety

/-- Settles O54: only a definition brings a new record, and its checks are the law's own. -/
theorem rangesAreKept : Obligations.RangesAreKept := fun _ _ h hstep =>
  step_keeps (P := RangeLaw) (fun _ _ _ _ ha => ha.rangeLaw) rangeLaw_of_reset (fun _ _ e h => by cases e; exact h)
    (fun _ _ h => h) h hstep

end Sys2Proof.Machine
end

section
/-! SUPPORT. The jobs of the engine and the slots of their groups (R7, R99, R101, R139), the banks that captures fill (R114, R139), and
the outstanding request of the running job (R103, R118): three laws, and how each act keeps them. -/

namespace Sys2Proof.Machine

open Sys2Proof.Safety

/-! ### Jobs and their slots -/

/-- The group's slot says that it has this job (R7, R99, R139). -/
def Group.Owns (x : Group) (j : Job) : Prop :=
  x.state ≠ .disabled ∧
    ((j.kind = .commit ∧ x.record.kind = .output ∧ (∃ c, x.committing = some c ∧ c ≠ .safe) ∧ j.count = x.seqCount + 1) ∨
     (j.kind = .safe ∧ x.record.kind = .output ∧ x.committing = some .safe ∧ j.count = x.seqCount + 1) ∨
     (j.kind = .capture ∧ x.record.kind = .input ∧ x.captureInFlight = true))

/-- The group's slots ask for jobs that the list holds (R7, R139). -/
def Group.Needs (x : Group) (g : GroupNo) (l : List Job) : Prop :=
  (x.committing ≠ none → ∃ j ∈ l, j.group = g ∧ j.kind ≠ .capture) ∧
  (x.captureInFlight = true → ∃ j ∈ l, j.group = g ∧ j.kind = .capture)

/-- At most one job for any group, each owned by its slot, and a job for every slot that asks for one. -/
structure JobsOk (grp : GroupNo → Option Group) (l : List Job) : Prop where
  nodup : (l.map Job.group).Nodup
  owned : ∀ j ∈ l, (j.kind = .capture ↔ j.phase = .capture) ∧ ∃ x, grp j.group = some x ∧ x.Owns j
  needed : ∀ g x, grp g = some x → x.Needs g l

/-- Two jobs that the law of jobs does not tell apart. -/
def Job.Like (k j : Job) : Prop :=
  k.kind = j.kind ∧ k.group = j.group ∧ k.count = j.count ∧ (k.phase = .capture ↔ j.phase = .capture)

theorem Job.Like.refl (j : Job) : j.Like j := ⟨rfl, rfl, rfl, .rfl⟩

theorem Group.Owns.like {x : Group} {j k : Job} (h : x.Owns j) (hk : k.Like j) : x.Owns k := by
  obtain ⟨h1, h2, h3, -⟩ := hk
  rw [Group.Owns, h1, h3]
  exact h

theorem JobsOk.perm {grp : GroupNo → Option Group} {l l' : List Job} (h : JobsOk grp l) (hp : l'.Perm l) : JobsOk grp l' where
  nodup := (hp.map Job.group).nodup_iff.mpr h.nodup
  owned j hj := h.owned j (hp.mem_iff.mp hj)
  needed g x hx := by
    obtain ⟨h1, h2⟩ := h.needed g x hx
    exact ⟨fun hc => (h1 hc).imp fun j ⟨hj, r⟩ => ⟨hp.mem_iff.mpr hj, r⟩,
      fun hc => (h2 hc).imp fun j ⟨hj, r⟩ => ⟨hp.mem_iff.mpr hj, r⟩⟩

/-- Jobs may change what the law does not read. -/
theorem JobsOk.map {grp : GroupNo → Option Group} {l : List Job} (h : JobsOk grp l) {f : Job → Job} (hf : ∀ j, (f j).Like j) :
    JobsOk grp (l.map f) where
  nodup := by
    rw [List.map_map]
    exact (List.map_congr_left (fun j _ => (hf j).2.1) : l.map (Job.group ∘ f) = l.map Job.group) ▸ h.nodup
  owned k hk := by
    obtain ⟨j, hj, rfl⟩ := List.mem_map.mp hk
    obtain ⟨hphase, x, hx, ho⟩ := h.owned j hj
    obtain ⟨h1, h2, -, h4⟩ := hf j
    exact ⟨by rw [h1, h4]; exact hphase, x, h2 ▸ hx, ho.like (hf j)⟩
  needed g x hx := by
    obtain ⟨h1, h2⟩ := h.needed g x hx
    have hmap : ∀ j, (f j).group = j.group ∧ (f j).kind = j.kind := fun j => ⟨(hf j).2.1, (hf j).1⟩
    constructor
    · intro hc
      obtain ⟨j, hj, hg, hk⟩ := h1 hc
      exact ⟨f j, List.mem_map_of_mem hj, (hmap j).1.trans hg, by rw [(hmap j).2]; exact hk⟩
    · intro hc
      obtain ⟨j, hj, hg, hk⟩ := h2 hc
      exact ⟨f j, List.mem_map_of_mem hj, (hmap j).1.trans hg, (hmap j).2.trans hk⟩

/-- One job may change what the law does not read. -/
theorem JobsOk.replace {grp : GroupNo → Option Group} {l : List Job} {j k : Job} (h : JobsOk grp (j :: l)) (hk : k.Like j) :
    JobsOk grp (k :: l) where
  nodup := by
    have := h.nodup
    rw [List.map_cons] at this ⊢
    rw [hk.2.1]
    exact this
  owned i hi := by
    rcases List.mem_cons.mp hi with rfl | hi
    · obtain ⟨hphase, x, hx, ho⟩ := h.owned j List.mem_cons_self
      exact ⟨by rw [hk.1, hk.2.2.2]; exact hphase, x, hk.2.1 ▸ hx, ho.like hk⟩
    · exact h.owned i (List.mem_cons_of_mem _ hi)
  needed g x hx := by
    obtain ⟨h1, h2⟩ := h.needed g x hx
    constructor
    · intro hc
      obtain ⟨i, hi, hg, hki⟩ := h1 hc
      rcases List.mem_cons.mp hi with rfl | hi
      · exact ⟨k, List.mem_cons_self, hk.2.1.trans hg, by rw [hk.1]; exact hki⟩
      · exact ⟨i, List.mem_cons_of_mem _ hi, hg, hki⟩
    · intro hc
      obtain ⟨i, hi, hg, hki⟩ := h2 hc
      rcases List.mem_cons.mp hi with rfl | hi
      · exact ⟨k, List.mem_cons_self, hk.2.1.trans hg, hk.1.trans hki⟩
      · exact ⟨i, List.mem_cons_of_mem _ hi, hg, hki⟩

/-- The slots read alike, slot by slot. -/
def Group.SlotLike (x y : Group) : Prop :=
  y.record.kind = x.record.kind ∧ y.committing = x.committing ∧ y.seqCount = x.seqCount ∧
    y.captureInFlight = x.captureInFlight ∧ (x.state ≠ .disabled → y.state ≠ .disabled)

theorem Group.Owns.slotLike {x y : Group} {j : Job} (h : x.Owns j) (hl : x.SlotLike y) : y.Owns j := by
  obtain ⟨h1, h2, h3, h4, h5⟩ := hl
  refine ⟨h5 h.1, ?_⟩
  rw [h1, h2, h3, h4]
  exact h.2

/-- A group may change what the law of jobs does not read. -/
theorem JobsOk.quiet {grp grp' : GroupNo → Option Group} {l : List Job} (h : JobsOk grp l)
    (hread : ∀ k y, grp' k = some y → ∃ x, grp k = some x ∧ x.SlotLike y)
    (hback : ∀ k x, grp k = some x → ∃ y, grp' k = some y ∧ x.SlotLike y) : JobsOk grp' l where
  nodup := h.nodup
  owned j hj := by
    obtain ⟨hphase, x, hx, ho⟩ := h.owned j hj
    obtain ⟨y, hy, hl⟩ := hback _ x hx
    exact ⟨hphase, y, hy, ho.slotLike hl⟩
  needed g y hy := by
    obtain ⟨x, hx, -, hc, -, hf, -⟩ := hread g y hy
    rw [Group.Needs, hc, hf]
    exact h.needed g x hx

/-- One slot is written. -/
def Writes (grp : GroupNo → Option Group) (g : GroupNo) (o : Option Group) (grp' : GroupNo → Option Group) : Prop :=
  ∀ k, grp' k = if g = k then o else grp k

theorem Writes.same {grp grp' : GroupNo → Option Group} {g : GroupNo} {o : Option Group} (h : Writes grp g o grp') :
    grp' g = o := by rw [h, if_pos rfl]

theorem Writes.ne {grp grp' : GroupNo → Option Group} {g k : GroupNo} {o : Option Group} (h : Writes grp g o grp')
    (hk : k ≠ g) : grp' k = grp k := by rw [h, if_neg (Ne.symm hk)]

theorem JobsOk.write {grp grp' : GroupNo → Option Group} {l : List Job} {g : GroupNo} {x y : Group} (h : JobsOk grp l)
    (hx : grp g = some x) (hw : Writes grp g (some y) grp') (hl : x.SlotLike y) : JobsOk grp' l := by
  refine h.quiet (fun k z hz => ?_) (fun k z hz => ?_)
  · by_cases hk : k = g
    · subst hk
      rw [hw.same] at hz
      cases hz
      exact ⟨x, hx, hl⟩
    · rw [hw.ne hk] at hz
      exact ⟨z, hz, rfl, rfl, rfl, rfl, id⟩
  · by_cases hk : k = g
    · subst hk
      rw [hx] at hz
      cases hz
      exact ⟨y, hw.same, hl⟩
    · exact ⟨z, (hw.ne hk).trans hz, rfl, rfl, rfl, rfl, id⟩

/-- A group without a job is written so that it asks for none. -/
theorem JobsOk.idle {grp grp' : GroupNo → Option Group} {l : List Job} {g : GroupNo} {o : Option Group} (h : JobsOk grp l)
    (hno : ∀ j ∈ l, j.group ≠ g) (hw : Writes grp g o grp')
    (hy : ∀ y, o = some y → y.committing = none ∧ y.captureInFlight = false) : JobsOk grp' l where
  nodup := h.nodup
  owned j hj := by
    obtain ⟨hphase, x, hx, ho⟩ := h.owned j hj
    exact ⟨hphase, x, (hw.ne (hno j hj)).trans hx, ho⟩
  needed k y hk := by
    by_cases he : k = g
    · subst he
      obtain ⟨h1, h2⟩ := hy y (hw.same.symm.trans hk)
      exact ⟨fun hc => absurd h1 hc, fun hc => absurd (h2.symm.trans hc) nofun⟩
    · rw [hw.ne he] at hk
      exact h.needed k y hk

/-- A job is created for a group that has none. -/
theorem JobsOk.add {grp grp' : GroupNo → Option Group} {l : List Job} {j : Job} {y : Group} (h : JobsOk grp l)
    (hno : ∀ i ∈ l, i.group ≠ j.group) (hw : Writes grp j.group (some y) grp') (ho : y.Owns j)
    (hphase : j.kind = .capture ↔ j.phase = .capture) (hy : y.Needs j.group [j]) : JobsOk grp' (j :: l) where
  nodup := by
    rw [List.map_cons, List.nodup_cons]
    refine ⟨fun hm => ?_, h.nodup⟩
    obtain ⟨i, hi, he⟩ := List.mem_map.mp hm
    exact hno i hi he
  owned i hi := by
    rcases List.mem_cons.mp hi with rfl | hi
    · exact ⟨hphase, y, hw.same, ho⟩
    · obtain ⟨hp, x, hx, ho'⟩ := h.owned i hi
      exact ⟨hp, x, (hw.ne (hno i hi)).trans hx, ho'⟩
  needed k z hz := by
    by_cases he : k = j.group
    · subst he
      obtain rfl : z = y := Option.some.inj (hz.symm.trans hw.same)
      obtain ⟨h1, h2⟩ := hy
      exact ⟨fun hc => (h1 hc).imp fun i ⟨hi, r⟩ => ⟨List.mem_cons.mpr (.inl (List.mem_singleton.mp hi)), r⟩,
        fun hc => (h2 hc).imp fun i ⟨hi, r⟩ => ⟨List.mem_cons.mpr (.inl (List.mem_singleton.mp hi)), r⟩⟩
    · rw [hw.ne he] at hz
      obtain ⟨h1, h2⟩ := h.needed k z hz
      exact ⟨fun hc => (h1 hc).imp fun i ⟨hi, r⟩ => ⟨List.mem_cons_of_mem _ hi, r⟩,
        fun hc => (h2 hc).imp fun i ⟨hi, r⟩ => ⟨List.mem_cons_of_mem _ hi, r⟩⟩

/-- The other jobs are those of other groups. -/
theorem JobsOk.others {grp : GroupNo → Option Group} {l : List Job} {j : Job} (h : JobsOk grp (j :: l)) :
    ∀ i ∈ l, i.group ≠ j.group := by
  have := h.nodup
  rw [List.map_cons, List.nodup_cons] at this
  exact fun i hi he => this.1 (he ▸ List.mem_map_of_mem hi)

/-- A job ends, and its group asks for none any more. -/
theorem JobsOk.remove {grp grp' : GroupNo → Option Group} {l : List Job} {j : Job} {y : Group} (h : JobsOk grp (j :: l))
    (hw : Writes grp j.group (some y) grp') (hy : y.committing = none ∧ y.captureInFlight = false) : JobsOk grp' l where
  nodup := by
    have := h.nodup
    rw [List.map_cons, List.nodup_cons] at this
    exact this.2
  owned i hi := by
    obtain ⟨hp, x, hx, ho⟩ := h.owned i (List.mem_cons_of_mem _ hi)
    exact ⟨hp, x, (hw.ne (h.others i hi)).trans hx, ho⟩
  needed k z hz := by
    by_cases he : k = j.group
    · subst he
      obtain rfl : z = y := Option.some.inj (hz.symm.trans hw.same)
      exact ⟨fun hc => absurd hy.1 hc, fun hc => absurd (hy.2.symm.trans hc) nofun⟩
    · rw [hw.ne he] at hz
      obtain ⟨h1, h2⟩ := h.needed k z hz
      have hskip : ∀ i ∈ j :: l, i.group = k → i ∈ l := fun i hi hg => by
        rcases List.mem_cons.mp hi with rfl | hi
        · exact absurd hg.symm he
        · exact hi
      exact ⟨fun hc => (h1 hc).imp fun i ⟨hi, hg, r⟩ => ⟨hskip i hi hg, hg, r⟩,
        fun hc => (h2 hc).imp fun i ⟨hi, hg, r⟩ => ⟨hskip i hi hg, hg, r⟩⟩

/-! ### What a slot says about the jobs of its group -/

/-- A group whose slot neither commits nor captures has no job. -/
theorem JobsOk.none_of_idle {grp : GroupNo → Option Group} {l : List Job} {g : GroupNo} {x : Group} (h : JobsOk grp l)
    (hx : grp g = some x) (hi : x.state = .disabled ∨ (x.record.kind = .output ∧ x.committing = none) ∨
      (x.record.kind = .input ∧ x.captureInFlight = false)) : ∀ j ∈ l, j.group ≠ g := by
  intro j hj he
  obtain ⟨-, y, hy, hs, ho⟩ := h.owned j hj
  obtain rfl : y = x := Option.some.inj (hy.symm.trans (he ▸ hx))
  rcases hi with hd | ⟨hk, hc⟩ | ⟨hk, hc⟩
  · exact hs hd
  · rcases ho with ⟨-, -, ⟨c, h2, -⟩, -⟩ | ⟨-, -, h2, -⟩ | ⟨-, h2, -⟩
    · exact absurd (hc.symm.trans h2) nofun
    · exact absurd (hc.symm.trans h2) nofun
    · exact absurd (hk.symm.trans h2) nofun
  · rcases ho with ⟨-, h2, -⟩ | ⟨-, h2, -⟩ | ⟨-, -, h2⟩
    · exact absurd (hk.symm.trans h2) nofun
    · exact absurd (hk.symm.trans h2) nofun
    · exact absurd (hc.symm.trans h2) nofun

/-- An output group has no capture in flight, and an input group no committing image. -/
theorem JobsOk.slots_of_kind {grp : GroupNo → Option Group} {l : List Job} {g : GroupNo} {x : Group} (h : JobsOk grp l)
    (hx : grp g = some x) :
    (x.record.kind = .output → x.captureInFlight = false) ∧ (x.record.kind = .input → x.committing = none) := by
  obtain ⟨h1, h2⟩ := h.needed g x hx
  constructor
  · intro hk
    by_contra hc
    obtain ⟨j, hj, hg, hkind⟩ := h2 (by simpa using hc)
    obtain ⟨-, y, hy, -, ho⟩ := h.owned j hj
    obtain rfl : y = x := Option.some.inj (hy.symm.trans (hg ▸ hx))
    rcases ho with ⟨e, -⟩ | ⟨e, -⟩ | ⟨-, e, -⟩
    · exact absurd (hkind.symm.trans e) nofun
    · exact absurd (hkind.symm.trans e) nofun
    · exact absurd (hk.symm.trans e) nofun
  · intro hk
    by_contra hc
    obtain ⟨j, hj, hg, hkind⟩ := h1 hc
    obtain ⟨-, y, hy, -, ho⟩ := h.owned j hj
    obtain rfl : y = x := Option.some.inj (hy.symm.trans (hg ▸ hx))
    rcases ho with ⟨-, e, -⟩ | ⟨-, e, -⟩ | ⟨e, -⟩
    · exact absurd (hk.symm.trans e) nofun
    · exact absurd (hk.symm.trans e) nofun
    · exact hkind e

/-- A DISABLED group asks for no job. -/
theorem JobsOk.idle_of_disabled {grp : GroupNo → Option Group} {l : List Job} {g : GroupNo} {x : Group} (h : JobsOk grp l)
    (hx : grp g = some x) (hs : x.state = .disabled) : x.committing = none ∧ x.captureInFlight = false := by
  have hno := h.none_of_idle hx (.inl hs)
  obtain ⟨h1, h2⟩ := h.needed g x hx
  constructor
  · by_contra hc
    obtain ⟨j, hj, hg, -⟩ := h1 hc
    exact hno j hj hg
  · by_contra hc
    obtain ⟨j, hj, hg, -⟩ := h2 (by simpa using hc)
    exact hno j hj hg

/-! ### Banks -/

/-- The banks of an input group hold whole captures, and the back bank is FILLING only while the group's capture runs (R139). -/
def BankOk (running : Option Job) (g : GroupNo) (x : Group) : Prop :=
  x.record.kind = .input →
    (∀ b, x.front = some b → b.words.length = x.record.length) ∧
    (∀ b, x.back = .pending b → b.words.length = x.record.length) ∧
    (∀ ws, x.back = .filling ws → ∃ j, running = some j ∧ j.kind = .capture ∧ j.group = g)

/-- The banks, and what the captures that run or wait have read (R114). -/
structure BanksOk (grp : GroupNo → Option Group) (running : Option Job) (waiting : List Job) : Prop where
  banks : ∀ g x, grp g = some x → BankOk running g x
  waiting : ∀ j ∈ waiting, j.kind = .capture → j.progress = 0
  running : ∀ j, running = some j → j.kind = .capture → ∃ x, grp j.group = some x ∧
    (∃ ws, x.back = .filling ws ∧ ws.length = j.progress) ∧ j.progress ≤ x.record.length

/-- With no capture running no bank is FILLING, so the running job may be any. -/
theorem BankOk.of_idle {r r' : Option Job} {g : GroupNo} {x : Group} (h : BankOk r g x)
    (hr : ∀ j, r = some j → j.kind ≠ .capture) : BankOk r' g x := by
  intro hk
  obtain ⟨h1, h2, h3⟩ := h hk
  refine ⟨h1, h2, fun ws hb => ?_⟩
  obtain ⟨j, hj, hc, -⟩ := h3 ws hb
  exact absurd hc (hr j hj)

theorem BankOk.like {r r' : Option Job} {g : GroupNo} {x : Group} (h : BankOk r g x)
    (hr : ∀ j, r = some j → ∃ k, r' = some k ∧ k.kind = j.kind ∧ k.group = j.group) : BankOk r' g x := by
  intro hk
  obtain ⟨h1, h2, h3⟩ := h hk
  refine ⟨h1, h2, fun ws hb => ?_⟩
  obtain ⟨j, hj, hc, hg⟩ := h3 ws hb
  obtain ⟨k, hk, e1, e2⟩ := hr j hj
  exact ⟨k, hk, e1.trans hc, e2.trans hg⟩

/-- A bank of another group than the running capture's is not FILLING. -/
theorem BankOk.of_other {r r' : Option Job} {g : GroupNo} {x : Group} (h : BankOk r g x)
    (hr : ∀ j, r = some j → j.group ≠ g) : BankOk r' g x := by
  intro hk
  obtain ⟨h1, h2, h3⟩ := h hk
  refine ⟨h1, h2, fun ws hb => ?_⟩
  obtain ⟨j, hj, -, hg⟩ := h3 ws hb
  exact absurd hg (hr j hj)

/-! ### The outstanding request -/

/-- The outstanding request of the engine is one of its running job, and a burst is the one R114 gives. -/
def RequestOk (grp : GroupNo → Option Group) (running : Option Job) (port : Option PortUse) : Prop :=
  ∀ u, port = some u →
    (u.purpose = .burst → ∃ j, running = some j ∧ j.kind = .capture ∧
      ∀ x, grp j.group = some x → u.request = burstRequest x j.progress) ∧
    (u.purpose = .opening ∨ u.purpose = .dataWrite ∨ u.purpose = .releaseRead ∨ u.purpose = .releaseWrite ∨
      u.purpose = .closing → ∃ j, running = some j ∧ j.kind ≠ .capture)

theorem requestOk_of_free (grp : GroupNo → Option Group) (r : Option Job) : RequestOk grp r none := nofun

/-- The port is free or the host path's. -/
theorem requestOk_of_idle {grp : GroupNo → Option Group} {r : Option Job} {p : Option PortUse}
    (h : p.elim false (fun u => u.purpose.isEngine) = false) : RequestOk grp r p := by
  intro u hu
  subst hu
  constructor
  · intro hb
    rw [Option.elim_some, hb] at h
    cases h
  · intro hb
    rw [Option.elim_some] at h
    rcases hb with e | e | e | e | e <;> (rw [e] at h; cases h)

theorem burstRequest_congr {x y : Group} (h : y.record = x.record) (n : Nat) : burstRequest y n = burstRequest x n := by
  simp only [burstRequest, burstLength, h]

/-- The groups keep their records. -/
theorem RequestOk.of_records {grp grp' : GroupNo → Option Group} {r : Option Job} {p : Option PortUse} (h : RequestOk grp r p)
    (hr : ∀ k y, grp' k = some y → ∃ x, grp k = some x ∧ y.record = x.record) : RequestOk grp' r p := by
  intro u hu
  obtain ⟨h1, h2⟩ := h u hu
  refine ⟨fun hb => ?_, h2⟩
  obtain ⟨j, hj, hk, hx⟩ := h1 hb
  refine ⟨j, hj, hk, fun y hy => ?_⟩
  obtain ⟨x, hx', e⟩ := hr _ y hy
  rw [burstRequest_congr e]
  exact hx x hx'

/-! ### The three laws together -/

/-- The laws of the engine and of the banks, outside the RESET input. -/
structure EngineOk (s : State) : Prop where
  jobs : JobsOk s.group s.engine.jobs
  banks : BanksOk s.group s.engine.running (s.engine.queue ++ s.engine.marginList)
  request : RequestOk s.group s.engine.running s.port

theorem jobMatches_iff (s : State) (j : Job) :
    JobMatches s j ↔ (j.kind = .capture ↔ j.phase = .capture) ∧ ∃ x, s.group j.group = some x ∧ x.Owns j := by
  unfold JobMatches
  refine and_congr_right fun _ => ?_
  constructor
  · rintro ⟨x, hx, hs, h⟩
    refine ⟨x, hx, hs, ?_⟩
    cases hk : j.kind <;> simp only [hk] at h
    · exact .inl ⟨rfl, h.1, h.2.1, h.2.2⟩
    · exact .inr (.inl ⟨rfl, h⟩)
    · exact .inr (.inr ⟨rfl, h⟩)
  · rintro ⟨x, hx, hs, h⟩
    refine ⟨x, hx, hs, ?_⟩
    rcases h with ⟨hk, h⟩ | ⟨hk, h⟩ | ⟨hk, h⟩ <;> simp only [hk]
    · exact h
    · exact h
    · exact h

theorem engineOk_iff {s : State} (h0 : s.resetAsserted = false) : EngineOk s ↔ EngineLaw s ∧ BankLaw s := by
  constructor
  · rintro ⟨⟨h1, h2, h3⟩, ⟨b1, b2, b3⟩, hr⟩
    refine ⟨fun _ => ⟨h1, fun j hj => (jobMatches_iff s j).mpr (h2 j hj), fun g x hx => ?_, fun u hu => ?_⟩,
      fun g x hx hk => ?_, b2, b3, fun u hu hb j hj x hx => ?_⟩
    · obtain ⟨hc, hf⟩ := h3 g x hx
      exact ⟨fun h => hc (Option.isSome_iff_ne_none.mp h), hf⟩
    · obtain ⟨hb, ho⟩ := hr u hu
      cases hp : u.purpose <;> simp only
      case burst => obtain ⟨j, hj, hk, -⟩ := hb hp; exact ⟨j, hj, hk⟩
      case opening | dataWrite | releaseRead | releaseWrite | closing =>
        obtain ⟨j, hj, hk⟩ := ho (by simp [hp])
        exact ⟨j, hj, hk⟩
    · obtain ⟨hf, hp, hw⟩ := b1 g x hx hk
      refine ⟨hf, ?_⟩
      rcases hb : x.back with _ | ws | b <;> simp only
      · exact fun _ => hw ws hb
      · exact hp b hb
    · obtain ⟨i, hi, -, hq⟩ := (hr u hu).1 hb
      obtain rfl : i = j := Option.some.inj (hi.symm.trans hj)
      exact hq x hx
  · rintro ⟨he, hb1, hb2, hb3, hb4⟩
    obtain ⟨h1, h2, h3, h4⟩ := he h0
    refine ⟨⟨h1, fun j hj => (jobMatches_iff s j).mp (h2 j hj), fun g x hx => ?_⟩, ⟨fun g x hx hk => ?_, hb2, hb3⟩, fun u hu => ?_⟩
    · obtain ⟨hc, hf⟩ := h3 g x hx
      exact ⟨fun h => hc (Option.isSome_iff_ne_none.mpr h), hf⟩
    · obtain ⟨hf, hm⟩ := hb1 g x hx hk
      refine ⟨hf, fun b e => ?_, fun ws e => ?_⟩
      · rw [e] at hm; exact hm
      · rw [e] at hm; exact hm h0
    · have hm := h4 u hu
      refine ⟨fun hp => ?_, fun hp => ?_⟩
      · simp only [hp] at hm
        obtain ⟨j, hj, hk⟩ := hm
        exact ⟨j, hj, hk, fun x hx => hb4 u hu hp j hj x hx⟩
      · rcases hp with hp | hp | hp | hp | hp <;> (simp only [hp] at hm; exact hm)

end Sys2Proof.Machine
end

section
/-! SUPPORT. Every act keeps the laws of the engine and of the banks. -/

namespace Sys2Proof.Machine

open Sys2Proof.Safety

/-! ### Groups written, with the engine as it was -/

theorem writes_of_groups_set {s t : State} {g : GroupNo} {o : Option Group} (h : t.groups = s.groups.set g o) :
    Writes s.group g o t.group := group_of_groups_set h

theorem Writes.records {grp grp' : GroupNo → Option Group} {g : GroupNo} {x y : Group} (hw : Writes grp g (some y) grp')
    (hx : grp g = some x) (hr : y.record = x.record) : ∀ k z, grp' k = some z → ∃ w, grp k = some w ∧ z.record = w.record := by
  intro k z hz
  by_cases hk : k = g
  · subst hk
    rw [hw.same] at hz
    cases hz
    exact ⟨x, hx, hr⟩
  · rw [hw.ne hk] at hz
    exact ⟨z, hz, rfl⟩

theorem EngineOk.congr {s t : State} (h : EngineOk s) (hg : t.groups = s.groups) (he : t.engine = s.engine)
    (hp : t.port = s.port) : EngineOk t := by
  have hgrp : t.group = s.group := funext fun k => group_of_groups_eq hg k
  obtain ⟨h1, h2, h3⟩ := h
  constructor
  · rw [hgrp, he]; exact h1
  · rw [hgrp, he]; exact h2
  · rw [hgrp, he, hp]; exact h3

/-- Banks after one group was written: a FILLING bank of it stays as it is. -/
theorem BanksOk.write {grp grp' : GroupNo → Option Group} {r : Option Job} {l : List Job} {g : GroupNo} {x y : Group}
    (h : BanksOk grp r l) (hx : grp g = some x) (hw : Writes grp g (some y) grp') (hr : y.record = x.record)
    (hb : BankOk r g y) (hf : ∀ ws, x.back = .filling ws → y.back = .filling ws) : BanksOk grp' r l where
  banks k z hz := by
    by_cases hk : k = g
    · subst hk
      rw [hw.same] at hz
      cases hz
      exact hb
    · rw [hw.ne hk] at hz
      exact h.banks k z hz
  waiting := h.waiting
  running j hj hk := by
    obtain ⟨z, hz, ⟨ws, hws, hlen⟩, hle⟩ := h.running j hj hk
    by_cases he : j.group = g
    · obtain rfl : z = x := Option.some.inj (hz.symm.trans (he ▸ hx))
      exact ⟨y, he ▸ hw.same, ⟨ws, hf ws hws, hlen⟩, hr ▸ hle⟩
    · exact ⟨z, (hw.ne he).trans hz, ⟨ws, hws, hlen⟩, hle⟩

/-- Banks after a group without a job was written. -/
theorem BanksOk.idle {grp grp' : GroupNo → Option Group} {r : Option Job} {l : List Job} {g : GroupNo} {o : Option Group}
    (h : BanksOk grp r l) (hno : ∀ j, r = some j → j.group ≠ g) (hw : Writes grp g o grp')
    (hb : ∀ y, o = some y → BankOk r g y) : BanksOk grp' r l where
  banks k z hz := by
    by_cases hk : k = g
    · subst hk
      exact hb z (hw.same.symm.trans hz)
    · rw [hw.ne hk] at hz
      exact h.banks k z hz
  waiting := h.waiting
  running j hj hk := by
    obtain ⟨z, hz, hrest⟩ := h.running j hj hk
    exact ⟨z, (hw.ne (hno j hj)).trans hz, hrest⟩

theorem mem_jobs_of_running {s : State} {j : Job} (h : s.engine.running = some j) : j ∈ s.engine.jobs := by
  simp [Engine.jobs, h]

/-- A group without a job is written so that it asks for none, and the engine goes on as it was. -/
theorem EngineOk.idle {s t : State} {g : GroupNo} {o : Option Group} (h : EngineOk s)
    (hno : ∀ j ∈ s.engine.jobs, j.group ≠ g) (hg : t.groups = s.groups.set g o) (he : t.engine = s.engine)
    (hp : t.port = s.port) (hy : ∀ y, o = some y → y.committing = none ∧ y.captureInFlight = false)
    (hb : ∀ y, o = some y → BankOk s.engine.running g y) : EngineOk t := by
  have hw := writes_of_groups_set hg
  have hrun : ∀ j, s.engine.running = some j → j.group ≠ g := fun j hj => hno j (mem_jobs_of_running hj)
  constructor
  · rw [he]; exact h.jobs.idle hno hw hy
  · rw [he]; exact h.banks.idle hrun hw hb
  · rw [he, hp]
    intro u hu
    obtain ⟨h1, h2⟩ := h.request u hu
    refine ⟨fun hu => ?_, h2⟩
    obtain ⟨j, hj, hk, hx⟩ := h1 hu
    exact ⟨j, hj, hk, fun x hx' => hx x ((hw.ne (hrun j hj)).symm.trans hx')⟩

/-- Empty banks keep the law of banks. -/
theorem bankOk_of_empty {r : Option Job} {g : GroupNo} {x : Group} (hf : x.front = none) (hb : x.back = .idle) :
    BankOk r g x := by
  refine fun _ => ⟨fun b e => ?_, fun b e => ?_, fun ws e => ?_⟩
  · rw [hf] at e; cases e
  · rw [hb] at e; cases e
  · rw [hb] at e; cases e

theorem bankOk_of_output {r : Option Job} {g : GroupNo} {x : Group} (h : x.record.kind = .output) : BankOk r g x :=
  fun hi => absurd (h.symm.trans hi) nofun

/-- A DISABLED group has no FILLING bank, whatever runs. -/
theorem EngineOk.bank_of_disabled {s : State} {g : GroupNo} {x : Group} (h : EngineOk s) (hx : s.group g = some x)
    (hs : x.state = .disabled) (r : Option Job) : BankOk r g x := by
  have hno := h.jobs.none_of_idle hx (.inl hs)
  exact (h.banks.banks g x hx).of_other fun j hj => hno j (mem_jobs_of_running hj)

/-- A move keeps what the laws of the engine read of a slot. -/
theorem Group.Moves.slotLike {free n : Nat} {x y : Group} (h : x.Moves free y n) : x.SlotLike y := by
  have hrec := h.record
  refine ⟨by rw [hrec], ?_⟩
  cases h with
  | swap c hs =>
    refine ⟨by simp, ?_, by simp, fun h => by simpa using h⟩
    show ({ x with holdCount := c } : Group).swapPending.seqCount = x.seqCount
    unfold Group.swapPending; split <;> rfl
  | enterSafe | resume | drainOutput | drainInput => exact ⟨rfl, rfl, rfl, fun _ => nofun⟩
  | merge | append | damage | discard | arm | coalesce | behind | stale | countHold | hold | unhold =>
    exact ⟨rfl, rfl, rfl, id⟩

/-- A PENDING back bank goes to the front whole. -/
theorem bankOk_swapPending {r : Option Job} {g : GroupNo} {x : Group} (h : BankOk r g x) : BankOk r g x.swapPending := by
  intro hk
  rw [Group.swapPending_record] at hk ⊢
  obtain ⟨h1, h2, h3⟩ := h hk
  unfold Group.swapPending
  split
  · next b hb => exact ⟨fun b' e => by cases e; exact h2 b hb, nofun, nofun⟩
  · exact ⟨h1, h2, h3⟩
  · exact ⟨h1, h2, h3⟩

/-- A swap leaves a FILLING bank alone. -/
theorem Group.swapPending_filling_back {x : Group} {ws : List Word} (h : x.back = .filling ws) :
    x.swapPending.back = .filling ws := by
  unfold Group.swapPending
  split
  · next hb => rw [h] at hb; cases hb
  · exact h
  · exact h

theorem Group.Moves.bankOk {free n : Nat} {x y : Group} (h : x.Moves free y n) {r : Option Job} {g : GroupNo}
    (hx : BankOk r g x) : BankOk r g y ∧ (x.record.kind = .input → ∀ ws, x.back = .filling ws → y.back = .filling ws) := by
  cases h with
  | swap c hs => exact ⟨bankOk_swapPending (x := { x with holdCount := c }) hx,
      fun _ ws hb => Group.swapPending_filling_back (x := { x with holdCount := c }) hb⟩
  | drainInput bk hk hs hb =>
    rcases hb with ⟨rfl, hp⟩ | ⟨rfl, hp⟩
    · refine ⟨fun hi => ⟨(hx hi).1, nofun, nofun⟩, fun _ ws hf => ?_⟩
      rw [hf] at hp
      cases hp
    · exact ⟨hx, fun _ _ h => h⟩
  | merge | append | damage | discard | arm | coalesce | behind | stale | enterSafe | resume | countHold | hold | unhold
    | drainOutput => exact ⟨hx, fun _ _ h => h⟩

/-! ### Jobs that come, run and go -/

/-- A job of a capture is one of an input group, any other one of an output group (R99). -/
theorem Group.Owns.kind {x : Group} {j : Job} (h : x.Owns j) : j.kind = .capture ↔ x.record.kind = .input := by
  rcases h with ⟨-, ⟨h1, h2, -⟩ | ⟨h1, h2, -⟩ | ⟨h1, h2, -⟩⟩ <;> simp [h1, h2]

theorem jobs_of_running {s : State} {j : Job} (h : s.engine.running = some j) :
    s.engine.jobs = j :: (s.engine.queue ++ s.engine.marginList) := by
  simp [Engine.jobs, h]

theorem jobs_of_idle {s : State} (h : s.engine.running = none) :
    s.engine.jobs = s.engine.queue ++ s.engine.marginList := by
  simp [Engine.jobs, h]

/-- The running job is a capture exactly when its phase is. -/
theorem EngineOk.running_owned {s : State} {j : Job} (h : EngineOk s) (hr : s.engine.running = some j) :
    (j.kind = .capture ↔ j.phase = .capture) ∧ ∃ x, s.group j.group = some x ∧ x.Owns j :=
  h.jobs.owned j (mem_jobs_of_running hr)

theorem EngineOk.running_burst {s : State} {j : Job} {q : PortRequest} (h : EngineOk s) (hr : s.engine.running = some j)
    (hp : s.port = some ⟨.burst, q⟩) : j.kind = .capture ∧ ∀ x, s.group j.group = some x → q = burstRequest x j.progress := by
  obtain ⟨k, hk, hkind, hx⟩ := (h.request _ hp).1 rfl
  obtain rfl : k = j := Option.some.inj (hk.symm.trans hr)
  exact ⟨hkind, hx⟩

theorem EngineOk.running_image {s : State} {j : Job} {u : PortUse} (h : EngineOk s) (hr : s.engine.running = some j)
    (hp : s.port = some u) (hu : u.purpose = .opening ∨ u.purpose = .dataWrite ∨ u.purpose = .releaseRead ∨
      u.purpose = .releaseWrite ∨ u.purpose = .closing) : j.kind ≠ .capture := by
  obtain ⟨k, hk, hkind⟩ := (h.request _ hp).2 hu
  obtain rfl : k = j := Option.some.inj (hk.symm.trans hr)
  exact hkind

/-- A job that leaves as a capture is one. -/
theorem EngineOk.leaves_kind {s : State} {j : Job} {c : Bool} {p : Option PortUse} (h : EngineOk s) (hl : Leaves s j c p) :
    j.kind = .capture ↔ c = true := by
  obtain ⟨hr, ⟨-, -, hph⟩ | ⟨-, q, hq⟩⟩ := hl
  · exact (h.running_owned hr).1.trans hph
  · cases c
    · exact iff_of_false (h.running_image hr hq (by simp)) nofun
    · exact iff_of_true (h.running_burst hr hq).1 rfl

theorem Leaves.requestOk {s : State} {j : Job} {c : Bool} {p : Option PortUse} (hl : Leaves s j c p)
    (grp : GroupNo → Option Group) (r : Option Job) : RequestOk grp r p := by
  obtain ⟨-, ⟨hb, rfl, -⟩ | ⟨rfl, -⟩⟩ := hl
  · exact requestOk_of_idle hb
  · exact requestOk_of_free _ _

/-- The running job ends. -/
theorem EngineOk.leave {s t : State} {j : Job} {c : Bool} {p : Option PortUse} {y : Group} (h : EngineOk s)
    (hl : Leaves s j c p) (hg : t.groups = s.groups.set j.group (some y))
    (he : t.engine = { s.engine with running := none }) (hp : t.port = p)
    (hy : y.committing = none ∧ y.captureInFlight = false) (hb : BankOk none j.group y) : EngineOk t := by
  have hw := writes_of_groups_set hg
  have hj := jobs_of_running hl.1
  constructor
  · rw [he, show ({ s.engine with running := none } : Engine).jobs = s.engine.queue ++ s.engine.marginList by simp [Engine.jobs]]
    exact (hj ▸ h.jobs).remove hw hy
  · rw [he]
    refine ⟨fun k z hz => ?_, h.banks.waiting, fun i hi => by cases hi⟩
    by_cases hk : k = j.group
    · subst hk
      rw [hw.same] at hz
      cases hz
      exact hb
    · rw [hw.ne hk] at hz
      exact (h.banks.banks k z hz).of_other fun i hi he => by
        obtain rfl : i = j := Option.some.inj (hi.symm.trans hl.1)
        exact hk he.symm
  · rw [hp]
    exact hl.requestOk _ _

/-- A job is created at the tail of the queue for a group that has none. -/
theorem EngineOk.append {s t : State} {g : GroupNo} {x y : Group} {j : Job} (h : EngineOk s) (hx : s.group g = some x)
    (hidle : x.state = .disabled ∨ (x.record.kind = .output ∧ x.committing = none) ∨
      (x.record.kind = .input ∧ x.captureInFlight = false))
    (hg : t.groups = s.groups.set g (some y)) (he : t.engine = { s.engine with queue := s.engine.queue ++ [j] })
    (hp : t.port = s.port) (hj : j.group = g) (ho : y.Owns j) (hphase : j.kind = .capture ↔ j.phase = .capture)
    (hn : y.Needs g [j]) (hzero : j.kind = .capture → j.progress = 0)
    (hkeep : y.record = x.record ∧ y.front = x.front ∧ y.back = x.back) : EngineOk t := by
  obtain ⟨hrec, hfront, hback⟩ := hkeep
  have hw := writes_of_groups_set hg
  have hno := h.jobs.none_of_idle hx hidle
  have hperm : ({ s.engine with queue := s.engine.queue ++ [j] } : Engine).jobs.Perm (j :: s.engine.jobs) := by
    simp only [Engine.jobs, List.append_assoc, List.singleton_append]
    rw [← List.append_assoc]
    refine List.perm_middle.trans (List.Perm.cons _ ?_)
    rw [List.append_assoc]
  have hbank : BankOk s.engine.running g y := by
    have := h.banks.banks g x hx
    rw [BankOk, ← hrec, ← hfront, ← hback] at this
    exact this
  subst hj
  constructor
  · rw [he]
    exact (h.jobs.add hno hw ho hphase hn).perm hperm
  · rw [he]
    have hold := h.banks.idle (fun i hi => hno i (mem_jobs_of_running hi)) hw (fun z hz => by cases hz; exact hbank)
    refine ⟨hold.banks, fun i hi hk => ?_, hold.running⟩
    rcases List.mem_append.mp hi with hi | hi
    · rcases List.mem_append.mp hi with hi | hi
      · exact hold.waiting i (List.mem_append_left _ hi) hk
      · rw [List.mem_singleton.mp hi] at hk ⊢
        exact hzero hk
    · exact hold.waiting i (List.mem_append_right _ hi) hk
  · rw [he, hp]
    exact h.request.of_records (hw.records hx hrec)

/-- The running job changes what the laws do not read; the port is p afterwards. -/
theorem EngineOk.rerun {s t : State} {j k : Job} (h : EngineOk s) (hr : s.engine.running = some j) (hk : k.Like j)
    (hpr : j.kind = .capture → k.progress = j.progress) (hg : t.groups = s.groups)
    (he : t.engine = { s.engine with running := some k }) (hq : RequestOk s.group (some k) t.port) : EngineOk t := by
  have hgrp : t.group = s.group := funext fun g => group_of_groups_eq hg g
  have hj := jobs_of_running hr
  constructor
  · rw [hgrp, he, show ({ s.engine with running := some k } : Engine).jobs = k :: (s.engine.queue ++ s.engine.marginList) by
      simp [Engine.jobs]]
    exact (hj ▸ h.jobs).replace hk
  · rw [hgrp, he]
    refine ⟨fun g x hx => (h.banks.banks g x hx).like fun i hi => ?_, h.banks.waiting, fun i hi hkind => ?_⟩
    · obtain rfl : i = j := Option.some.inj (hi.symm.trans hr)
      exact ⟨k, rfl, hk.1, hk.2.1⟩
    · obtain rfl : i = k := Option.some.inj hi.symm
      have hjk := hk.1.symm.trans hkind
      rw [hk.2.1, hpr hjk]
      exact h.banks.running j hr hjk
  · rw [hgrp, he]
    exact hq

/-! ### The requests of a job -/

/-- The requests of a phase: a capture asks for the burst R114 gives, any other job for a write or a release pair (R104 to R114). -/
theorem nextRequest_purpose {j : Job} {x : Group} {u : PortUse} (h : nextRequest j x = some u) :
    (j.phase = .capture ∧ u = ⟨.burst, burstRequest x j.progress⟩) ∨
      (j.phase ≠ .capture ∧ (u.purpose = .opening ∨ u.purpose = .dataWrite ∨ u.purpose = .releaseRead ∨
        u.purpose = .releaseWrite ∨ u.purpose = .closing)) := by
  have hclose : ∀ v, closingOf j x = some v → v.purpose = .closing := by
    intro v hv
    unfold closingOf at hv
    split at hv
    · cases hv; rfl
    · cases hv
  unfold nextRequest at h
  split at h
  · next hp =>
    split at h
    · cases h; exact .inl ⟨hp, rfl⟩
    · cases h
  · next hp =>
    refine .inr ⟨by simp [hp], ?_⟩
    split at h
    · cases h; simp
    · split at h
      · cases h; simp
      · simp [hclose u h]
  · next hp =>
    refine .inr ⟨by simp [hp], ?_⟩
    split at h
    · cases h; simp
    · simp [hclose u h]
  · next hp =>
    refine .inr ⟨by simp [hp], ?_⟩
    split at h
    · cases h; simp
    · split at h
      · split at h
        · cases h; simp
        · cases h; simp
      · cases h

/-- The engine asks for a TORN write, or for its running job's next request (R118). -/
theorem engineAsk_cases {s : State} {u : PortUse} (h : s.engineAsk = some u) :
    u.purpose = .torn ∨ ∃ j x, s.engine.running = some j ∧ s.group j.group = some x ∧ nextRequest j x = some u := by
  unfold State.engineAsk at h
  split at h
  · split at h
    · obtain ⟨t, -, rfl⟩ := Option.map_eq_some_iff.mp h
      exact .inl rfl
    · cases h
  · obtain ⟨j, hj, hb⟩ := Option.bind_eq_some_iff.mp h
    obtain ⟨x, hx, hn⟩ := Option.bind_eq_some_iff.mp hb
    exact .inr ⟨j, x, hj, hx, hn⟩

theorem noteIssued_like (j : Job) (p : Purpose) : (j.noteIssued p).Like j ∧ (j.noteIssued p).progress = j.progress := by
  unfold Job.noteIssued
  split <;> exact ⟨⟨rfl, rfl, rfl, .rfl⟩, rfl⟩

theorem noteMargin_like (g : GroupNo) (j : Job) : (j.noteMargin g).Like j ∧ (j.noteMargin g).progress = j.progress := by
  unfold Job.noteMargin
  split <;> exact ⟨⟨rfl, rfl, rfl, .rfl⟩, rfl⟩

/-- What the engine asks for is a request of its running job, noted or not. -/
theorem EngineOk.asked {s : State} {u : PortUse} (h : EngineOk s) (hu : s.engineAsk = some u) :
    RequestOk s.group (s.engine.running.map (fun j => j.noteIssued u.purpose)) (some u) := by
  rintro v ⟨⟩
  rcases engineAsk_cases hu with ht | ⟨j, x, hj, hx, hn⟩
  · rw [ht]
    exact ⟨nofun, fun hp => by simp at hp⟩
  · obtain ⟨hkind, -⟩ := h.running_owned hj
    obtain ⟨hl, hpr⟩ := noteIssued_like j u.purpose
    rw [hj]
    rcases nextRequest_purpose hn with ⟨hp, rfl⟩ | ⟨hp, hu⟩
    · refine ⟨fun _ => ⟨_, rfl, hl.1.trans (hkind.mpr hp), fun y hy => ?_⟩, fun hp => by simp at hp⟩
      rw [hl.2.1, hx] at hy
      cases hy
      rw [hpr]
    · refine ⟨fun hb => by simp [hb] at hu, fun _ => ⟨_, rfl, fun hc => hp (hkind.mp (hl.1.symm.trans hc))⟩⟩

end Sys2Proof.Machine
end

section
/-! SUPPORT. Every act keeps the laws of the engine and of the banks: acts on a slot, on the engine, and on the running job. -/

namespace Sys2Proof.Machine

open Sys2Proof.Safety

/-! ### Acts on a slot -/

theorem EngineOk.moves {s t : State} {g : GroupNo} {x y : Group} {n : Nat} (h : EngineOk s) (hx : s.group g = some x)
    (hm : x.Moves s.freeStage y n) (hg : t.groups = s.groups.set g (some y)) (he : t.engine = s.engine)
    (hp : t.port = s.port) : EngineOk t := by
  have hw := writes_of_groups_set hg
  obtain ⟨hbank, hfill⟩ := hm.bankOk (h.banks.banks g x hx)
  constructor
  · rw [he]; exact h.jobs.write hx hw hm.slotLike
  · rw [he]
    refine ⟨fun k z hz => ?_, h.banks.waiting, fun j hj hk => ?_⟩
    · by_cases hk : k = g
      · subst hk
        rw [hw.same] at hz
        cases hz
        exact hbank
      · rw [hw.ne hk] at hz
        exact h.banks.banks k z hz
    · obtain ⟨z, hz, ⟨ws, hws, hlen⟩, hle⟩ := h.banks.running j hj hk
      by_cases heq : j.group = g
      · obtain rfl : z = x := Option.some.inj (hz.symm.trans (heq ▸ hx))
        obtain ⟨-, w, hw', ho⟩ := h.running_owned hj
        obtain rfl : w = z := Option.some.inj (hw'.symm.trans hz)
        exact ⟨y, heq ▸ hw.same, ⟨ws, hfill (ho.kind.mp hk) ws hws, hlen⟩, by rw [hm.record]; exact hle⟩
      · exact ⟨z, (hw.ne heq).trans hz, ⟨ws, hws, hlen⟩, hle⟩
  · rw [he, hp]
    exact h.request.of_records (hw.records hx hm.record)

/-- A DISABLED group is written so that it asks for no job, with its banks empty or as they were. -/
theorem EngineOk.ofDisabled {s t : State} {g : GroupNo} {x : Group} {o : Option Group} (h : EngineOk s)
    (hx : s.group g = some x) (hs : x.state = .disabled) (hg : t.groups = s.groups.set g o) (he : t.engine = s.engine)
    (hp : t.port = s.port) (hy : ∀ y, o = some y → y.committing = none ∧ y.captureInFlight = false)
    (hb : ∀ y, o = some y → BankOk s.engine.running g x → BankOk s.engine.running g y) : EngineOk t :=
  h.idle (h.jobs.none_of_idle hx (.inl hs)) hg he hp hy fun y hy => hb y hy (h.banks.banks g x hx)

/-- An abandoned group asks for no job and fills no bank. -/
theorem EngineOk.abandoned {s : State} {g : GroupNo} {x : Group} (h : EngineOk s) (hx : s.group g = some x) :
    (x.abandoned.committing = none ∧ x.abandoned.captureInFlight = false) ∧ BankOk none g x.abandoned := by
  rcases x.abandoned_cases with ⟨hs, e⟩ | ⟨-, e⟩ <;> rw [e]
  · exact ⟨h.jobs.idle_of_disabled hx hs, h.bank_of_disabled hx hs none⟩
  · exact ⟨⟨rfl, rfl⟩, bankOk_of_empty rfl rfl⟩

theorem EngineOk.abandon {s t : State} (h : EngineOk s) (hp : s.port = none)
    (hg : t.groups = s.groups.map (fun o => o.map Group.abandoned)) (he : t.engine = Engine.empty) (ht : t.port = s.port) :
    EngineOk t := by
  have hread : ∀ k y, t.group k = some y → ∃ x, s.group k = some x ∧ y = x.abandoned := fun k y hy => by
    rw [group_of_groups_map hg] at hy
    obtain ⟨x, hx, rfl⟩ := Option.map_eq_some_iff.mp hy
    exact ⟨x, hx, rfl⟩
  constructor
  · rw [he]
    refine ⟨List.nodup_nil, fun j hj => (by cases hj), fun g y hy => ?_⟩
    obtain ⟨x, hx, rfl⟩ := hread g y hy
    obtain ⟨⟨h1, h2⟩, -⟩ := h.abandoned hx
    exact ⟨fun hc => absurd h1 hc, fun hc => absurd (h2.symm.trans hc) nofun⟩
  · rw [he]
    refine ⟨fun g y hy => ?_, fun j hj => (by cases hj), fun j hj => (by cases hj)⟩
    obtain ⟨x, hx, rfl⟩ := hread g y hy
    exact (h.abandoned hx).2
  · rw [ht, hp]
    exact requestOk_of_free _ _

/-! ### Acts on the engine -/

/-- The head of the queue enters the running position. -/
theorem EngineOk.dispatch {s t : State} {j : Job} {rest : List Job} (h : EngineOk s) (hb : s.engineBusy = false)
    (hr : s.engine.running = none) (hq : s.engine.queue = j :: rest)
    (hk : j.kind = .capture → ∀ x, s.group j.group = some x → x.record.kind = .output)
    (hg : t.groups = s.groups) (he : t.engine = { s.engine with queue := rest, running := some j }) (hp : t.port = s.port) :
    EngineOk t := by
  have hgrp : t.group = s.group := funext fun g => group_of_groups_eq hg g
  have hj : s.engine.jobs = ({ s.engine with queue := rest, running := some j } : Engine).jobs := by simp [Engine.jobs, hr, hq]
  constructor
  · rw [hgrp, he, ← hj]; exact h.jobs
  · rw [hgrp, he]
    refine ⟨fun g x hx => (h.banks.banks g x hx).of_idle fun i hi => ?_, fun i hi => ?_, fun i hi hc => ?_⟩
    · rw [hr] at hi; cases hi
    · exact h.banks.waiting i (by rw [hq]; exact List.mem_cons_of_mem _ hi)
    · obtain rfl : i = j := Option.some.inj hi.symm
      obtain ⟨-, x, hx, ho⟩ := h.jobs.owned i (by rw [hj]; simp [Engine.jobs])
      exact absurd ((hk hc x hx).symm.trans (ho.kind.mp hc)) nofun
  · rw [hp]
    exact requestOk_of_idle hb

/-- A capture starts: its group's back bank is FILLING and empty (R145). -/
theorem EngineOk.dispatchCapture {s t : State} {j : Job} {rest : List Job} {x : Group} (h : EngineOk s)
    (hb : s.engineBusy = false) (hr : s.engine.running = none) (hq : s.engine.queue = j :: rest) (hj : j.kind = .capture)
    (hx : s.group j.group = some x) (hg : t.groups = s.groups.set j.group (some { x with back := .filling [] }))
    (he : t.engine = { s.engine with queue := rest, running := some j }) (hp : t.port = s.port) : EngineOk t := by
  have hw := writes_of_groups_set hg
  have hjobs : s.engine.jobs = ({ s.engine with queue := rest, running := some j } : Engine).jobs := by
    simp [Engine.jobs, hr, hq]
  have hzero : j.progress = 0 := h.banks.waiting j (by simp [hq]) hj
  constructor
  · rw [he, ← hjobs]
    exact h.jobs.write hx hw ⟨rfl, rfl, rfl, rfl, id⟩
  · rw [he]
    refine ⟨fun k z hz => ?_, fun i hi => ?_, fun i hi hc => ?_⟩
    · by_cases hk : k = j.group
      · subst hk
        rw [hw.same] at hz
        cases hz
        refine fun hi => ⟨(h.banks.banks _ x hx hi).1, fun b e => (by cases e), fun ws _ => ⟨j, rfl, hj, rfl⟩⟩
      · rw [hw.ne hk] at hz
        exact (h.banks.banks k z hz).of_idle fun i hi => by rw [hr] at hi; cases hi
    · exact h.banks.waiting i (by rw [hq]; exact List.mem_cons_of_mem _ hi)
    · obtain rfl : i = j := Option.some.inj hi.symm
      exact ⟨_, hw.same, ⟨[], rfl, hzero.symm⟩, by rw [hzero]; exact Nat.zero_le _⟩
  · rw [hp]
    exact requestOk_of_idle hb

/-- A job whose release ends waits again, for its ENGAGE phase (R111). -/
theorem EngineOk.turn {s t : State} {j k : Job} (h : EngineOk s) (hb : s.engineBusy = false)
    (hr : s.engine.running = some j) (hj : j.phase = .release) (hk : k = { j with phase := .engage, progress := 0 })
    (hrun : t.engine.running = none)
    (hperm : (t.engine.queue ++ t.engine.marginList).Perm (k :: (s.engine.queue ++ s.engine.marginList)))
    (hg : t.groups = s.groups) (hp : t.port = s.port) : EngineOk t := by
  have hgrp : t.group = s.group := funext fun g => group_of_groups_eq hg g
  have hnot : j.kind ≠ .capture := fun hc => by
    have := (h.running_owned hr).1.mp hc
    rw [hj] at this
    cases this
  have hlike : k.Like j := by subst hk; exact ⟨rfl, rfl, rfl, by simp [hj]⟩
  constructor
  · rw [hgrp, jobs_of_idle hrun]
    exact ((jobs_of_running hr ▸ h.jobs).replace hlike).perm hperm
  · rw [hgrp, hrun]
    refine ⟨fun g x hx => (h.banks.banks g x hx).of_idle fun i hi => ?_, fun i hi hc => ?_, fun i hi => (by cases hi)⟩
    · obtain rfl : i = j := Option.some.inj (hi.symm.trans hr)
      exact hnot
    · rcases List.mem_cons.mp (hperm.mem_iff.mp hi) with rfl | hi
      · exact absurd (hlike.1.symm.trans hc) hnot
      · exact h.banks.waiting i hi hc
  · rw [hp]
    exact requestOk_of_idle hb

/-- The jobs of a margin expiry are the jobs there were, one of them noted (R112). -/
theorem marginExpired_jobs (g : GroupNo) (s : State) :
    (marginExpired g s).engine.jobs.Perm (s.engine.jobs.map (Job.noteMargin g)) := by
  have hkeep : s.engine.marginList.filter (fun j => !j.marginRuns g) =
      (s.engine.marginList.filter (fun j => !j.marginRuns g)).map (Job.noteMargin g) := by
    refine (List.map_id _).symm.trans (List.map_congr_left fun j hj => ?_)
    have := (List.mem_filter.mp hj).2
    simp only [Bool.not_eq_eq_eq_not, Bool.not_true] at this
    simp [Job.noteMargin, this]
  have hlist := (List.filter_append_perm (fun j : Job => j.marginRuns g) s.engine.marginList).map (Job.noteMargin g)
  rw [List.map_append] at hlist
  simp only [marginExpired, State.setEngine_engine, Engine.jobs, List.map_append]
  rw [hkeep, List.append_assoc, List.append_assoc, List.append_assoc, Option.toList_map]
  refine List.Perm.append_left _ (List.Perm.append_left _ ?_)
  exact hlist

theorem EngineOk.margin {s : State} (h : EngineOk s) (g : GroupNo) : EngineOk (marginExpired g s) := by
  have hrun : (marginExpired g s).engine.running = s.engine.running.map (Job.noteMargin g) := rfl
  have hnote := noteMargin_like g
  refine ⟨(h.jobs.map fun j => (hnote j).1).perm (marginExpired_jobs g s), ⟨fun k x hx => ?_, fun i hi hc => ?_, fun i hi hc => ?_⟩, ?_⟩
  · exact (h.banks.banks k x hx).like fun j hj => ⟨j.noteMargin g, by rw [hrun, hj]; rfl, (hnote j).1.1, (hnote j).1.2.1⟩
  · have hold : ∀ j, j ∈ s.engine.queue ∨ j ∈ s.engine.marginList → j.kind = .capture → j.progress = 0 := fun j hj =>
      h.banks.waiting j (List.mem_append.mpr hj)
    have hnoted : ∀ j, j ∈ s.engine.queue ∨ j ∈ s.engine.marginList → i = j.noteMargin g → i.progress = 0 := fun j hj e => by
      rw [e] at hc ⊢
      rw [(hnote j).2]
      exact hold j hj ((hnote j).1.1.symm.trans hc)
    simp only [marginExpired, State.setEngine_engine, List.mem_append, List.mem_map, List.mem_filter] at hi
    rcases hi with (⟨j, hj, e⟩ | ⟨j, hj, e⟩) | hj
    · exact hnoted j (.inl hj) e.symm
    · exact hnoted j (.inr hj.1) e.symm
    · exact hold i (.inr hj.1) hc
  · rw [hrun] at hi
    obtain ⟨j, hj, rfl⟩ := Option.map_eq_some_iff.mp hi
    rw [(hnote j).1.2.1, (hnote j).2]
    exact h.banks.running j hj ((hnote j).1.1.symm.trans hc)
  · intro u hu
    obtain ⟨h1, h2⟩ := h.request u hu
    rw [hrun]
    refine ⟨fun hb => ?_, fun ho => ?_⟩
    · obtain ⟨j, hj, hk, hx⟩ := h1 hb
      refine ⟨j.noteMargin g, by rw [hj]; rfl, (hnote j).1.1.trans hk, ?_⟩
      rw [(hnote j).1.2.1, (hnote j).2]
      exact hx
    · obtain ⟨j, hj, hk⟩ := h2 ho
      exact ⟨j.noteMargin g, by rw [hj]; rfl, fun hc => hk ((hnote j).1.1.symm.trans hc)⟩

/-! ### Acts on the running job -/

/-- The words of a burst answered OKAY are placed behind those read before (R114). -/
theorem EngineOk.burst {s t : State} {j : Job} {x : Group} {data : List Word} {q : PortRequest} (h : EngineOk s)
    (hp : s.port = some ⟨.burst, q⟩) (hr : s.engine.running = some j) (hd : data.length = q.words.length)
    (hx : s.group j.group = some x) (hg : t.groups = s.groups.set j.group (some { x with back := .filling (x.back.words ++ data) }))
    (he : t.engine = { s.engine with running := some { j with progress := j.progress + data.length } })
    (ht : t.port = none) : EngineOk t := by
  have hw := writes_of_groups_set hg
  obtain ⟨hkind, hq⟩ := h.running_burst hr hp
  have hlen : data.length = burstLength x j.progress := by
    rw [hd, hq x hx]
    simp [burstRequest]
  obtain ⟨z, hz, ⟨ws, hws, hprog⟩, hle⟩ := h.banks.running j hr hkind
  obtain rfl : z = x := Option.some.inj (hz.symm.trans hx)
  constructor
  · rw [he, show ({ s.engine with running := some { j with progress := j.progress + data.length } } : Engine).jobs
      = { j with progress := j.progress + data.length } :: (s.engine.queue ++ s.engine.marginList) by simp [Engine.jobs]]
    have hjobs := h.jobs
    rw [jobs_of_running hr] at hjobs
    exact (hjobs.replace (k := { j with progress := j.progress + data.length })
      ⟨rfl, rfl, rfl, .rfl⟩).write hx hw ⟨rfl, rfl, rfl, rfl, id⟩
  · rw [he]
    refine ⟨fun k w hk' => ?_, h.banks.waiting, fun i hi _ => ?_⟩
    · by_cases hk : k = j.group
      · subst hk
        rw [hw.same] at hk'
        cases hk'
        exact fun hi => ⟨(h.banks.banks _ z hx hi).1, fun b e => (by cases e), fun ws _ => ⟨_, rfl, hkind, rfl⟩⟩
      · rw [hw.ne hk] at hk'
        exact (h.banks.banks k w hk').of_other fun i hi heq => by
          obtain rfl : i = j := Option.some.inj (hi.symm.trans hr)
          exact hk heq.symm
    · obtain rfl : i = { j with progress := j.progress + data.length } := Option.some.inj hi.symm
      refine ⟨_, hw.same, ⟨_, rfl, ?_⟩, ?_⟩
      · rw [List.length_append, hws, show (BackBank.filling ws).words = ws from rfl, hprog]
      · show j.progress + data.length ≤ z.record.length
        rw [hlen, burstLength]
        omega
  · rw [ht]
    exact requestOk_of_free _ _

/-- The banks of a capture that completes hold the whole range (R116, R147). -/
theorem EngineOk.captured {s t : State} {j : Job} {x : Group} {front : Option Bank} {back : BackBank} {p : Option PortUse}
    (h : EngineOk s) (hl : Leaves s j true p) (hx : s.group j.group = some x) (hk : x.record.kind = .input)
    (hb : front = x.front ∧ back = .idle ∨
      (x.state = .live ∧ x.record.length ≤ j.progress ∧
        ((x.held = true ∧ front = x.front ∧ back = .pending { epoch := j.epoch, words := x.back.words }) ∨
          (x.held = false ∧ front = some { epoch := j.epoch, words := x.back.words } ∧ back = .idle))))
    (hg : t.groups = s.groups.set j.group (some { x with captureInFlight := false, front := front, back := back }))
    (he : t.engine = { s.engine with running := none }) (ht : t.port = p) : EngineOk t := by
  refine h.leave hl hg he ht ⟨(h.jobs.slots_of_kind hx).2 hk, rfl⟩ fun _ => ?_
  have hfront := (h.banks.banks _ x hx hk).1
  obtain ⟨z, hz, ⟨ws, hws, hlen⟩, hle⟩ := h.banks.running j hl.1 ((h.leaves_kind hl).mpr rfl)
  obtain rfl : z = x := Option.some.inj (hz.symm.trans hx)
  have hwords : z.back.words = ws := by rw [hws]; rfl
  rcases hb with ⟨rfl, rfl⟩ | ⟨-, hend, ⟨-, rfl, rfl⟩ | ⟨-, rfl, rfl⟩⟩
  · exact ⟨hfront, fun b e => (by cases e), fun ws e => (by cases e)⟩
  · refine ⟨hfront, fun b e => ?_, fun ws e => (by cases e)⟩
    cases e
    exact (by rw [hwords]; omega : z.back.words.length = z.record.length)
  · refine ⟨fun b e => ?_, fun b e => (by cases e), fun ws e => (by cases e)⟩
    cases e
    exact (by rw [hwords]; omega : z.back.words.length = z.record.length)

/-! ### Every act -/

theorem Act.engineOk {i : Instr} {s t : State} (ha : Act i s t) (h : EngineOk s) : EngineOk t := by
  cases ha with
  | loose | raise | remove | mask | clear | link => exact h.congr rfl rfl rfl
  | release => exact ⟨h.jobs, h.banks, requestOk_of_free _ _⟩
  | moves g x y n hx hm => exact h.moves hx hm rfl rfl rfl
  | commit g x img j hx hk hs ha hc hj =>
    obtain ⟨h1, h2, h3, h4⟩ := hj
    refine h.append hx (.inr (.inl ⟨hk, hc⟩)) rfl rfl rfl h2 ⟨by simp, .inl ⟨h1, hk, ⟨_, rfl, nofun⟩, h3⟩⟩
      (by simp [h1, h4]) ⟨fun _ => ⟨j, by simp, h2, by simp [h1]⟩, fun hf => ?_⟩ (by simp [h1]) ⟨rfl, rfl, rfl⟩
    exact absurd (((h.jobs.slots_of_kind hx).1 hk).symm.trans hf) nofun
  | safe g x j hx hk hs hc hj =>
    obtain ⟨h1, h2, h3, h4⟩ := hj
    refine h.append hx (.inr (.inl ⟨hk, hc⟩)) rfl rfl rfl h2 ⟨by simp [hs], .inr (.inl ⟨h1, hk, rfl, h3⟩)⟩
      (by simp [h1, h4]) ⟨fun _ => ⟨j, by simp, h2, by simp [h1]⟩, fun hf => ?_⟩ (by simp [h1]) ⟨rfl, rfl, rfl⟩
    exact absurd (((h.jobs.slots_of_kind hx).1 hk).symm.trans hf) nofun
  | capture g x epoch hx hk hs hc =>
    refine h.append hx (.inr (.inr ⟨hk, hc⟩)) rfl rfl rfl rfl ⟨by simp [hs], .inr (.inr ⟨rfl, hk, rfl⟩)⟩
      (by simp [newCaptureJob]) ⟨fun hf => ?_, fun _ => ⟨_, List.mem_singleton_self _, rfl, rfl⟩⟩ (fun _ => rfl) ⟨rfl, rfl, rfl⟩
    exact absurd ((h.jobs.slots_of_kind hx).2 hk) hf
  | dispatch j rest hb hr hq hk => exact h.dispatch hb hr hq hk rfl rfl rfl
  | dispatchCapture j rest x hb hr hq hj hx hk => exact h.dispatchCapture hb hr hq hj hx rfl rfl rfl
  | turn j k e hb hr hj hk he =>
    refine h.turn hb hr hj hk ?_ ?_ rfl rfl
    · rcases he with rfl | rfl <;> rfl
    · rcases he with rfl | rfl
      · exact (List.append_assoc _ _ _ ▸ List.perm_middle)
      · exact (List.append_assoc _ _ _ ▸ List.perm_append_singleton _ _)
  | leave j c p hl hn =>
    obtain ⟨-, x, hx, ho⟩ := h.running_owned hl.1
    have hkind := (h.leaves_kind hl).symm.trans ho.kind
    have hx' := hn x hx
    cases c
    · exact absurd (hkind.mpr hx') nofun
    · exact absurd (hx'.symm.trans (hkind.mp rfl)) nofun
  | complete j x p hl hx hk =>
    exact h.leave hl rfl rfl rfl ⟨rfl, (h.jobs.slots_of_kind hx).1 hk⟩ (bankOk_of_output hk)
  | captured j x front back p hl hx hk hs hb => exact h.captured hl hx hk hb rfl rfl rfl
  | drained j x p hl hx hk hs =>
    exact h.leave hl rfl rfl rfl ⟨(h.jobs.slots_of_kind hx).2 hk, rfl⟩ (bankOk_of_empty rfl rfl)
  | answer j k u hp hr hu hk =>
    obtain ⟨h1, h2, h3, h4⟩ := hk
    exact h.rerun hr ⟨h1, h2, h3, by rw [h4]⟩ (fun hc => absurd hc (h.running_image hr hp hu)) rfl rfl (requestOk_of_free _ _)
  | burst j x data q hp hr hd hx hk => exact h.burst hp hr hd hx rfl rfl rfl
  | strayBurst j n q hp hr hn =>
    obtain ⟨-, x, hx, ho⟩ := h.running_owned hr
    exact absurd ((hn x hx).symm.trans (ho.kind.mp (h.running_burst hr hp).1)) nofun
  | margin g => exact h.margin g
  | grantEngine u n hp hu hn =>
    have hask := h.asked hu
    rcases hr : s.engine.running with - | j
    · rw [hr] at hask
      have he : (Machine.grantEngine u n s).engine = s.engine := by
        show ({ s.engine with running := s.engine.running.map _ } : Engine) = s.engine
        rw [hr, Option.map_none, ← hr]
      have hq : (Machine.grantEngine u n s).engine.running = none := by rw [he, hr]
      exact ⟨he ▸ h.jobs, he ▸ h.banks, hq ▸ hask⟩
    · rw [hr] at hask
      obtain ⟨hl, hpr⟩ := noteIssued_like j u.purpose
      exact h.rerun hr hl (fun _ => hpr) rfl (by rw [Machine.grantEngine, hr]; rfl) hask
  | grantHost v hp hv =>
    refine ⟨h.jobs, h.banks, requestOk_of_idle ?_⟩
    show v.purpose.isEngine = false
    rcases hv with e | e <;> (rw [e]; rfl)
  | abandon hp => exact h.abandon hp rfl rfl rfl
  | enableOutput g x hx hk hs =>
    exact h.ofDisabled hx hs rfl rfl rfl (fun y hy => by cases hy; exact ⟨rfl, (h.jobs.idle_of_disabled hx hs).2⟩)
      fun y hy _ => by cases hy; exact bankOk_of_output hk
  | enableInput g x hx hk hs hw =>
    exact h.ofDisabled hx hs rfl rfl rfl (fun y hy => by cases hy; exact ⟨(h.jobs.idle_of_disabled hx hs).1, rfl⟩)
      fun y hy _ => by cases hy; exact bankOk_of_empty rfl rfl
  | disableOutput g x hx hk hs hc =>
    exact h.idle (h.jobs.none_of_idle hx (.inr (.inl ⟨hk, hc⟩))) rfl rfl rfl
      (fun y hy => by cases hy; exact ⟨hc, (h.jobs.slots_of_kind hx).1 hk⟩) fun y hy => by cases hy; exact bankOk_of_output hk
  | disableInput g x hx hk hs hc =>
    exact h.idle (h.jobs.none_of_idle hx (.inr (.inr ⟨hk, hc⟩))) rfl rfl rfl
      (fun y hy => by cases hy; exact ⟨(h.jobs.slots_of_kind hx).2 hk, hc⟩) fun y hy => by cases hy; exact bankOk_of_empty rfl rfl
  | define g tag f hi hd hv =>
    refine h.idle (fun j hj he => ?_) rfl rfl rfl (fun y hy => by cases hy; exact ⟨rfl, rfl⟩)
      fun y hy => by cases hy; exact bankOk_of_empty rfl rfl
    obtain ⟨-, x, hx, ho⟩ := h.jobs.owned j hj
    rw [he] at hx
    simp only [State.definable, hx, Option.elim_some, Group.enabled, Bool.not_eq_true', decide_eq_false_iff_not,
      Decidable.not_not] at hd
    exact ho.1 hd
  | delete g x tag b hi hx hs =>
    exact h.ofDisabled hx hs rfl rfl rfl (fun y hy => by cases hy) fun y hy => by cases hy
  | loadSafe g x tag b first loads hi hx hs hl hf =>
    have hidle := h.jobs.idle_of_disabled hx hs
    exact h.ofDisabled hx hs rfl rfl rfl (fun y hy => by cases hy; exact hidle)
      fun y hy hb => by cases hy; exact hb

end Sys2Proof.Machine
end

section
/-! PROOFS. The obligation about the engine and the banks (R7, R99, R101, R114, R139). -/

namespace Sys2Proof.Machine

open Sys2Proof.Safety

/-- While the RESET input is asserted the laws ask for nothing but whole banks, since the engine is empty and the port free. -/
theorem engineLaws_of_resetAssert {s t : State} (h : execResetAssert s = .next t) (hb : BankLaw s) : EngineLaw t ∧ BankLaw t := by
  obtain ⟨hbanks, -⟩ := hb
  cases h
  refine ⟨fun h0 => absurd h0 nofun, fun g x hx hk => ?_, fun j hj => (by cases hj), fun j hj => (by cases hj), fun u hu => (by cases hu)⟩
  obtain ⟨hfront, hback⟩ := hbanks g x hx hk
  refine ⟨hfront, ?_⟩
  rcases hb : x.back with _ | ws | b <;> simp only
  · exact fun h0 => absurd h0 nofun
  · rw [hb] at hback
    exact hback

/-- Settles O55: every act outside the RESET input keeps the laws of jobs, banks and the outstanding request, and the resets empty
the engine. -/
theorem engineAndBanksAreKept : Obligations.EngineAndBanksAreKept := by
  intro s t he hb hstep
  refine step_keeps (P := fun s => EngineLaw s ∧ BankLaw s) (fun i u v h0 ha hu => ?_) (fun p => ?_)
    (fun u v ha hu => engineLaws_of_resetAssert ha hu.2) (fun u p hu => hu) ⟨he, hb⟩ hstep
  · exact (engineOk_iff (ha.resetAsserted.trans h0)).mp (ha.engineOk ((engineOk_iff h0).mpr hu))
  · refine (engineOk_iff rfl).mp ⟨⟨List.nodup_nil, fun j hj => (by cases hj), fun g x hx => ?_⟩,
      ⟨fun g x hx => ?_, fun j hj => (by cases hj), fun j hj => (by cases hj)⟩, requestOk_of_free _ _⟩
    · rw [group_of_reset] at hx; cases hx
    · rw [group_of_reset] at hx; cases hx

end Sys2Proof.Machine
end

section
/-! SUPPORT. What a command can make of a source, said once: its timers, lock sub-state and counts move by its kind, and then a cause
emits an edge or consumes a skip. -/

namespace Sys2Proof.Machine

open Sys2Proof.Safety

/-! ### The moves of one source -/

/-- What a cause makes of the timers, the lock sub-state and the counts of a source. -/
inductive Source.Times (x : Source) : Source → Prop
  | reload (r : SourceRecord) (p : BitVec 16) (hr : x.running = true) (hx : x.record = some r) (hk : r.kind = .timer p) :
      Times x { x with countdown := some (r.duration p) }
  | relock (r : SourceRecord) (p g : BitVec 16) (l : Byte) (y : SyncLine) (hr : x.running = true) (hx : x.record = some r)
      (hk : r.kind = .external p g l y) : Times x (x.relock (r.watchDuration p g))
  | rewatch (r : SourceRecord) (p g : BitVec 16) (l : Byte) (y : SyncLine) (hr : x.running = true) (hx : x.record = some r)
      (hk : r.kind = .external p g l y) (hl : x.lock = .locked) : Times x { x with watch := some (r.watchDuration p g) }
  | standIn (r : SourceRecord) (p g : BitVec 16) (l : Byte) (y : SyncLine) (h : Byte) (hr : x.running = true)
      (hx : x.record = some r) (hk : r.kind = .external p g l y) :
      Times x { x with lock := .holdover, holdover := h, watch := none, standIn := some (r.duration p),
                       absorbWindow := some (r.duration g) }
  | lose (r : SourceRecord) (p g : BitVec 16) (l : Byte) (y : SyncLine) (hr : x.running = true) (hx : x.record = some r)
      (hk : r.kind = .external p g l y) :
      Times x { x with lock := .lost, watch := none, standIn := none, absorbWindow := none }
  | closeWindow : Times x { x with absorbWindow := none }
  | count (r : SourceRecord) (p : SourceNo) (d k : Nat) (hr : x.running = true) (hx : x.record = some r)
      (hk : r.kind = .divided p d) (h : k < d ∨ k = 0) : Times x { x with phase := k }
  | insert (r : SourceRecord) (hr : x.running = true) (hx : x.record = some r) : Times x (x.inserted r)

/-- What a command other than a definition, a start and the resets can make of a source. -/
inductive Source.Moves (x : Source) : Source → Prop
  | keep : Moves x x
  | times (y : Source) (h : x.Times y) : Moves x y
  | consume (y : Source) (h : x.Times y) : Moves x { y with skip := false }
  | emit (y : Source) (h : x.Times y) : Moves x { y with epoch := y.epoch + 1, line := !y.line }
  | skip (b : Bool) (hr : x.running = true) : Moves x { x with skip := b }
  | stop : Moves x x.stop

/-- The host path, the port, the reset and the groups stay as they are. -/
def Aside (s t : State) : Prop := t.host = s.host ∧ t.port = s.port ∧ t.resetting = s.resetting ∧ t.groups = s.groups

/-- Only the source n moves, and nothing of the memory side. -/
structure MovesSource (n : SourceNo) (s t : State) : Prop where
  moves : (s.source n).Moves (t.source n)
  others : ∀ m, m ≠ n → t.source m = s.source m
  aside : Aside s t

theorem MovesSource.refl (n : SourceNo) (s : State) : MovesSource n s s := ⟨.keep, fun _ _ => rfl, rfl, rfl, rfl, rfl⟩

theorem MovesSource.of_sources {n : SourceNo} {s t u : State} (h : MovesSource n s t) (hu : u.sources = t.sources)
    (ha : Aside t u) : MovesSource n s u := by
  have he : ∀ m, u.source m = t.source m := fun m => by simp only [State.source, hu]
  obtain ⟨h1, h2, h3, h4⟩ := h.aside
  obtain ⟨a1, a2, a3, a4⟩ := ha
  exact ⟨by rw [he]; exact h.moves, fun m hm => by rw [he]; exact h.others m hm,
    a1.trans h1, a2.trans h2, a3.trans h3, a4.trans h4⟩

theorem MovesSource.set {n : SourceNo} {s : State} {y : Source} (h : (s.source n).Moves y) : MovesSource n s (s.setSource n y) :=
  ⟨by rw [State.source_setSource_same]; exact h, fun _ hm => State.source_setSource_ne s y (Ne.symm hm), rfl, rfl, rfl, rfl⟩

/-- A source takes new times, and emits its edge. -/
theorem MovesSource.emit {n : SourceNo} {s : State} {y : Source} (h : (s.source n).Times y) :
    MovesSource n s (emitEdge n (s.setSource n y)) := by
  refine ⟨?_, fun m hm => ?_, rfl, rfl, rfl, rfl⟩
  · rw [emitEdge_source, if_pos rfl, State.source_setSource_same]
    exact .emit y h
  · rw [emitEdge_source, if_neg (Ne.symm hm), State.source_setSource_ne s y (Ne.symm hm)]

/-- A source takes new times, and emits its edge or consumes its skip. -/
theorem MovesSource.cause {n : SourceNo} {s : State} {y : Source} (h : (s.source n).Times y) :
    MovesSource n s (emitOrSkip n (s.setSource n y)) := by
  rcases emitOrSkip_cases n (s.setSource n y) with ⟨-, e⟩ | ⟨-, e⟩ <;> rw [e]
  · rw [State.source_setSource_same, State.setSource_setSource]
    exact .set (.consume y h)
  · exact .emit h

/-! ### The moves of each cause -/

theorem timerExpired_moves (n : SourceNo) (s : State) : MovesSource n s (timerExpired n s) := by
  unfold timerExpired
  simp only
  split
  · next r hr hx =>
    split
    · next p hk => exact .cause (.reload r p hr hx hk)
    · exact .refl n s
    · exact .refl n s
  · exact .refl n s

theorem syncAtSource_moves {n : SourceNo} {s : State} {r : SourceRecord} {p g : BitVec 16} {l : Byte} {y : SyncLine}
    (hr : (s.source n).running = true) (hx : (s.source n).record = some r) (hk : r.kind = .external p g l y) :
    MovesSource n s (syncAtSource n (r.watchDuration p g) s) := by
  have hlock := Source.Times.relock r p g l y hr hx hk
  unfold syncAtSource
  simp only
  split
  · exact .cause hlock
  · next hl => exact .cause (.rewatch r p g l y hr hx hk hl)
  · split
    · exact .set (.times _ hlock)
    · exact .cause hlock
  · exact (MovesSource.cause hlock).of_sources rfl ⟨rfl, rfl, rfl, rfl⟩

theorem observeSync_moves (line : SyncLine) (n : SourceNo) (s : State) : MovesSource n s (observeSync line n s) := by
  unfold observeSync
  simp only
  split
  · next r hr hx =>
    split
    · next p g l y hk =>
      split
      · exact syncAtSource_moves hr hx hk
      · exact .refl n s
    · exact .refl n s
    · exact .refl n s
  · exact .refl n s

theorem watchExpired_moves (n : SourceNo) (s : State) : MovesSource n s (watchExpired n s) := by
  unfold watchExpired
  simp only
  split
  · next r hr hx =>
    split
    · next p g l y hk =>
      split
      · split
        · exact (MovesSource.set (.times _ (.lose r p g l y hr hx hk))).of_sources rfl ⟨rfl, rfl, rfl, rfl⟩
        · exact (MovesSource.cause (.standIn r p g l y 1 hr hx hk)).of_sources rfl ⟨rfl, rfl, rfl, rfl⟩
      · exact .refl n s
    · exact .refl n s
    · exact .refl n s
  · exact .refl n s

theorem standInExpired_moves (n : SourceNo) (s : State) : MovesSource n s (standInExpired n s) := by
  unfold standInExpired
  simp only
  split
  · next r hr hx =>
    split
    · next p g l y hk =>
      split
      · split
        · exact .cause (.standIn r p g l y _ hr hx hk)
        · exact (MovesSource.set (.times _ (.lose r p g l y hr hx hk))).of_sources rfl ⟨rfl, rfl, rfl, rfl⟩
      · exact .refl n s
    · exact .refl n s
    · exact .refl n s
  · exact .refl n s

theorem parentEdge_moves (c : SourceNo) (s : State) : MovesSource c s (parentEdge c s) := by
  rcases parentEdge_cases c s with e | ⟨r, p, d, hr, hx, hk, ⟨hd, e⟩ | ⟨-, e⟩⟩ <;> rw [e]
  · exact .refl c s
  · exact .set (.times _ (.count r p d _ hr hx hk (.inl hd)))
  · exact .cause (.count r p d 0 hr hx hk (.inr rfl))

theorem deliverToChild_moves (n c : SourceNo) (s : State) : MovesSource c s (deliverToChild n c s) := by
  unfold deliverToChild
  split
  · exact .refl c s
  · next void rest _ =>
    split
    · exact (MovesSource.refl c s).of_sources rfl ⟨rfl, rfl, rfl, rfl⟩
    · obtain ⟨hm, ho, ha⟩ := parentEdge_moves c (s.setEdges rest)
      exact ⟨hm, ho, ha⟩

theorem stopSource_moves (tag b : Byte) (s : State) : ∃ n, MovesSource n s (stopSource tag b s) := by
  unfold stopSource withSource
  split
  · next m _ =>
    refine ⟨m, ?_⟩
    simp only
    split
    · exact (MovesSource.set .stop).of_sources rfl ⟨rfl, rfl, rfl, rfl⟩
    · exact (MovesSource.refl m s).of_sources rfl ⟨rfl, rfl, rfl, rfl⟩
  · exact ⟨0, (MovesSource.refl 0 s).of_sources rfl ⟨rfl, rfl, rfl, rfl⟩⟩

theorem skipEdge_moves (tag b cancel : Byte) (s : State) : ∃ n, MovesSource n s (skipEdge tag b cancel s) := by
  unfold skipEdge withSource
  split
  · next m _ =>
    refine ⟨m, ?_⟩
    simp only
    split
    · split
      · next hr => exact (MovesSource.set (.skip _ hr)).of_sources rfl ⟨rfl, rfl, rfl, rfl⟩
      · exact (MovesSource.refl m s).of_sources rfl ⟨rfl, rfl, rfl, rfl⟩
    · exact (MovesSource.refl m s).of_sources rfl ⟨rfl, rfl, rfl, rfl⟩
  · exact ⟨0, (MovesSource.refl 0 s).of_sources rfl ⟨rfl, rfl, rfl, rfl⟩⟩

theorem insertEdge_moves (tag b : Byte) (s : State) : ∃ n, MovesSource n s (insertEdge tag b s) := by
  unfold insertEdge withSource
  split
  · next m _ =>
    refine ⟨m, ?_⟩
    simp only
    split
    · next r hx hr => exact (MovesSource.emit (.insert r hr hx)).of_sources rfl ⟨rfl, rfl, rfl, rfl⟩
    · exact (MovesSource.refl m s).of_sources rfl ⟨rfl, rfl, rfl, rfl⟩
  · exact ⟨0, (MovesSource.refl 0 s).of_sources rfl ⟨rfl, rfl, rfl, rfl⟩⟩

/-! ### The moves of each command -/

/-- Acts of a command that moves no source leave the sources alone. -/
theorem Work.sources_eq {i : Instr} (hi : movesSources i = false) {s t : State} (h : Work i s t) : t.sources = s.sources := by
  induction h with
  | refl => rfl
  | tail _ ha ih =>
    refine Eq.trans ?_ ih
    cases ha with
    | loose h es r p src hsrc =>
      rcases hsrc with e | e
      · exact e
      · exact absurd (hi.symm.trans e) nofun
    | _ => rfl

/-- Every source moves once at most. -/
def SourcesMove (s t : State) : Prop := ∀ n, (s.source n).Moves (t.source n)

theorem MovesSource.all {n : SourceNo} {s t : State} (h : MovesSource n s t) : SourcesMove s t := fun m => by
  by_cases hm : m = n
  · subst hm; exact h.moves
  · rw [h.others m hm]; exact .keep

theorem SourcesMove.of_sources {s t : State} (h : t.sources = s.sources) : SourcesMove s t := fun n => by
  rw [show t.source n = s.source n by simp only [State.source, h]]
  exact .keep

/-- A SYNC edge is observed by each source once (R83). -/
theorem observeAll_moves (line : SyncLine) (s : State) :
    SourcesMove s (observeSync line 3 (observeSync line 2 (observeSync line 1 (observeSync line 0 s)))) := by
  have h0 := observeSync_moves line 0 s
  have h1 := observeSync_moves line 1 (observeSync line 0 s)
  have h2 := observeSync_moves line 2 (observeSync line 1 (observeSync line 0 s))
  have h3 := observeSync_moves line 3 (observeSync line 2 (observeSync line 1 (observeSync line 0 s)))
  intro n
  match n with
  | 0 => rw [h3.others 0 (by decide), h2.others 0 (by decide), h1.others 0 (by decide)]; exact h0.moves
  | 1 => rw [h3.others 1 (by decide), h2.others 1 (by decide), ← h0.others 1 (by decide)]; exact h1.moves
  | 2 => rw [h3.others 2 (by decide), ← h0.others 2 (by decide), ← h1.others 2 (by decide)]; exact h2.moves
  | 3 => rw [← h0.others 3 (by decide), ← h1.others 3 (by decide), ← h2.others 3 (by decide)]; exact h3.moves

theorem SourcesMove.of_unlessReset {s t u : State} (h : unlessReset s (.next u) = .next t) (hu : SourcesMove s u) :
    SourcesMove s t := by
  rcases unlessReset_eq_next h with ⟨-, rfl⟩ | ⟨-, e⟩
  · exact .of_sources rfl
  · cases e; exact hu

/-- What a command makes of a state by its effect, when the frame only ends before it. -/
theorem SourcesMove.of_takeCommand {i : Instr} {s t : State} {e : State → State} (h : takeCommand i s e = .next t)
    (he : ∀ u, ∃ n, MovesSource n u (e u)) : SourcesMove s t := by
  rcases takeFrame_eq_next h with rfl | ⟨-, -, -, rfl⟩ | ⟨-, -, -, rfl⟩
  · exact .of_sources rfl
  · exact .of_sources rfl
  · obtain ⟨n, hn⟩ := he (s.frameEnds .complete (encodeFrame i))
    exact hn.all

/-- Every command but a definition, a start and the resets moves each source once at most. -/
theorem exec_moves {i : Instr} {s t : State} (h : exec i s = .next t) (hpower : i ≠ .powerOn)
    (hreset : ∀ tag, i ≠ .resetDevice tag) (hdefine : ∀ tag f, i ≠ .defineSource tag f)
    (hstart : ∀ tag b, i ≠ .startSource tag b) : SourcesMove s t := by
  by_cases hi : movesSources i = false
  · rcases exec_works h with ⟨rfl, -⟩ | ⟨-, ha⟩ | rfl | ⟨-, hw⟩
    · exact absurd rfl hpower
    · cases ha; exact .of_sources rfl
    · exact .of_sources rfl
    · exact .of_sources (hw.sources_eq hi)
  · cases i
    case timerExpiry n => exact .of_unlessReset h (timerExpired_moves n s).all
    case syncRisingEdge line => exact .of_unlessReset h (observeAll_moves line s)
    case watchExpiry n => exact .of_unlessReset h (watchExpired_moves n s).all
    case standInExpiry n => exact .of_unlessReset h (standInExpired_moves n s).all
    case absorbWindowClose n => exact .of_unlessReset h (MovesSource.set (.times _ .closeWindow)).all
    case parentEdgeDelivery n c => exact .of_unlessReset h (deliverToChild_moves n c s).all
    case resetDevice tag => exact absurd rfl (hreset tag)
    case defineSource tag f => exact absurd rfl (hdefine tag f)
    case startSource tag b => exact absurd rfl (hstart tag b)
    case stopSource tag b => exact .of_takeCommand h (stopSource_moves tag b)
    case skipEdge tag b c => exact .of_takeCommand h (skipEdge_moves tag b c)
    case insertEdge tag b => exact .of_takeCommand h (insertEdge_moves tag b)
    all_goals exact absurd rfl hi

end Sys2Proof.Machine
end

section
/-! PROOFS. The obligation about the epoch number and the EPOCH line (R77, R94). -/

namespace Sys2Proof.Machine

open Sys2Proof.Safety

/-- A change of times touches neither the epoch number nor the line. -/
theorem Source.Times.epoch {x y : Source} (h : x.Times y) : y.epoch = x.epoch ∧ y.line = x.line := by
  cases h with
  | insert r => unfold Source.inserted; split <;> (try split) <;> exact ⟨rfl, rfl⟩
  | _ => exact ⟨rfl, rfl⟩

theorem Source.Moves.epoch {x y : Source} (h : x.Moves y) :
    (y.epoch = x.epoch ∧ y.line = x.line) ∨ (y.epoch = x.epoch + 1 ∧ y.line = !x.line) := by
  cases h with
  | keep | skip | stop => exact .inl ⟨rfl, rfl⟩
  | times y h => exact .inl h.epoch
  | consume y h => exact .inl h.epoch
  | emit y h =>
    obtain ⟨he, hl⟩ := h.epoch
    exact .inr ⟨by rw [← he], by rw [← hl]⟩

/-- Settles O60: each source moves once at most, and only the emission of an edge touches the epoch number and the line. -/
theorem epochAndLineMoveTogether : Obligations.EpochAndLineMoveTogether :=
  fun _ _ _ n h hpower hreset hdefine hstart => (exec_moves h hpower hreset hdefine hstart n).epoch

end Sys2Proof.Machine
end

section
/-! SUPPORT. The law of one source: its timers are those of its kind and sub-state, and a parent has a lower number (R71 to R91). -/

namespace Sys2Proof.Machine

open Sys2Proof.Safety

/-- The timers and the phase count of a RUNNING source of this record (R81 to R90). -/
def TimersOk (r : SourceRecord) (x : Source) : Prop :=
  match r.kind with
  | .timer p => x.countdown = some (r.duration p) ∧ x.watch = none ∧ x.standIn = none ∧ x.absorbWindow = none
  | .external p g _ _ =>
    x.countdown = none ∧
    match x.lock with
    | .await => x.watch = none ∧ x.standIn = none ∧ x.absorbWindow = none
    | .locked => x.watch = some (r.watchDuration p g) ∧ x.standIn = none ∧ x.absorbWindow = none
    | .holdover => x.watch = none ∧ x.standIn = some (r.duration p)
    | .lost => x.watch = none ∧ x.standIn = none ∧ x.absorbWindow = none
  | .divided _ d => x.countdown = none ∧ x.watch = none ∧ x.standIn = none ∧ x.absorbWindow = none ∧ x.phase < d

/-- A record's parent has a lower number, and its divisor is 1 to 256 (R71, R72). -/
def ParentOk (n : SourceNo) (r : SourceRecord) : Prop :=
  match r.kind with
  | .timer _ => True
  | .external _ _ _ _ => True
  | .divided p d => p < n ∧ 1 ≤ d ∧ d ≤ 256

/-- No timer runs and no skip is pending. -/
def Source.Quiet (x : Source) : Prop :=
  x.skip = false ∧ x.countdown = none ∧ x.watch = none ∧ x.standIn = none ∧ x.absorbWindow = none

/-- The laws of one source together. -/
structure SourceOk (n : SourceNo) (x : Source) : Prop where
  quiet : x.running = false → x.Quiet
  defined : x.record = none → x.running = false
  timers : x.running = true → ∀ r, x.record = some r → TimersOk r x
  parent : ∀ r, x.record = some r → ParentOk n r

theorem sourceLaws_iff (s : State) : (SourceLaw s ∧ TimerLaw s ∧ ParentLaw s) ↔ ∀ n, SourceOk n (s.source n) := by
  constructor
  · rintro ⟨h1, h2, h3⟩ n
    exact ⟨(h1 n).1, (h1 n).2, h2 n, h3 n⟩
  · intro h
    exact ⟨fun n => ⟨(h n).quiet, (h n).defined⟩, fun n => (h n).timers, fun n => (h n).parent⟩

/-! ### Moves -/

/-- A change of times keeps the record, RUNNING and the skip flag. -/
theorem Source.Times.fields {x y : Source} (h : x.Times y) :
    y.record = x.record ∧ y.running = x.running ∧ y.skip = x.skip := by
  cases h with
  | insert r => unfold Source.inserted; split <;> (try split) <;> exact ⟨rfl, rfl, rfl⟩
  | _ => exact ⟨rfl, rfl, rfl⟩

/-- INSERT_EDGE restarts the timer that runs (R93). -/
theorem timersOk_inserted {r : SourceRecord} {x : Source} {n : SourceNo} (h : TimersOk r x) (hp : ParentOk n r) :
    TimersOk r (x.inserted r) := by
  unfold Source.inserted
  split
  · next p hk =>
    simp only [TimersOk, hk] at h ⊢
    exact ⟨trivial, h.2⟩
  · next p g l y hk =>
    simp only [TimersOk, hk] at h ⊢
    obtain ⟨hc, hl⟩ := h
    cases hlock : x.lock <;> simp only [hlock] at hl ⊢
    · exact ⟨hc, hl⟩
    · exact ⟨hc, trivial, hl.2⟩
    · exact ⟨hc, hl.1, trivial⟩
    · exact ⟨hc, hl⟩
  · next p d hk =>
    simp only [TimersOk, ParentOk, hk] at h hp ⊢
    obtain ⟨h1, h2, h3, h4, -⟩ := h
    exact ⟨h1, h2, h3, h4, by omega⟩

theorem Source.Times.timersOk {n : SourceNo} {x y : Source} {q : SourceRecord} (h : x.Times y) (hq : x.record = some q)
    (hx : TimersOk q x) (hp : ParentOk n q) : TimersOk q y := by
  have hsame : ∀ r, x.record = some r → r = q := fun r hr => Option.some.inj (hr.symm.trans hq)
  cases h with
  | reload r p hr hxr hk =>
    obtain rfl := hsame r hxr
    simp only [TimersOk, hk] at hx ⊢
    exact ⟨trivial, hx.2⟩
  | relock r p g l y hr hxr hk =>
    obtain rfl := hsame r hxr
    simp only [TimersOk, hk] at hx ⊢
    exact ⟨hx.1, rfl, rfl, rfl⟩
  | rewatch r p g l y hr hxr hk hl =>
    obtain rfl := hsame r hxr
    simp only [TimersOk, hk, hl] at hx ⊢
    exact ⟨hx.1, trivial, hx.2.2⟩
  | standIn r p g l y h hr hxr hk =>
    obtain rfl := hsame r hxr
    simp only [TimersOk, hk] at hx ⊢
    exact ⟨hx.1, trivial, trivial⟩
  | lose r p g l y hr hxr hk =>
    obtain rfl := hsame r hxr
    simp only [TimersOk, hk] at hx ⊢
    exact ⟨hx.1, trivial, trivial, trivial⟩
  | closeWindow =>
    cases hk : q.kind <;> simp only [TimersOk, hk] at hx ⊢
    · exact ⟨hx.1, hx.2.1, hx.2.2.1, trivial⟩
    · obtain ⟨hc, hl⟩ := hx
      cases hlock : x.lock <;> simp only [hlock] at hl ⊢
      · exact ⟨hc, hl.1, hl.2.1, trivial⟩
      · exact ⟨hc, hl.1, hl.2.1, trivial⟩
      · exact ⟨hc, hl⟩
      · exact ⟨hc, hl.1, hl.2.1, trivial⟩
    · obtain ⟨h1, h2, h3, -, h5⟩ := hx
      exact ⟨h1, h2, h3, trivial, h5⟩
  | count r p d k hr hxr hk hcount =>
    obtain rfl := hsame r hxr
    simp only [TimersOk, ParentOk, hk] at hx hp ⊢
    obtain ⟨h1, h2, h3, h4, -⟩ := hx
    exact ⟨h1, h2, h3, h4, by omega⟩
  | insert r hr hxr =>
    obtain rfl := hsame r hxr
    exact timersOk_inserted hx hp

/-- A source that does not run can only have its window closed. -/
theorem Source.Times.quiet {x y : Source} (h : x.Times y) (hr : x.running = false) (hx : x.Quiet) : y.Quiet := by
  cases h with
  | closeWindow =>
    obtain ⟨h1, h2, h3, h4, -⟩ := hx
    exact ⟨h1, h2, h3, h4, rfl⟩
  | reload _ _ h | relock _ _ _ _ _ h | rewatch _ _ _ _ _ h | standIn _ _ _ _ _ _ h | lose _ _ _ _ _ h | count _ _ _ _ h
    | insert _ h => exact absurd (hr.symm.trans h) nofun

theorem Source.Times.sourceOk {n : SourceNo} {x y : Source} (h : x.Times y) (hx : SourceOk n x) : SourceOk n y := by
  obtain ⟨hrec, hrun, -⟩ := h.fields
  constructor
  · intro hr
    rw [hrun] at hr
    exact h.quiet hr (hx.quiet hr)
  · rw [hrec, hrun]; exact hx.defined
  · rw [hrec, hrun]
    exact fun hr q hq => h.timersOk hq (hx.timers hr q hq) (hx.parent q hq)
  · rw [hrec]; exact hx.parent

theorem Source.Moves.sourceOk {n : SourceNo} {x y : Source} (h : x.Moves y) (hx : SourceOk n x) : SourceOk n y := by
  cases h with
  | keep => exact hx
  | times y h => exact h.sourceOk hx
  | consume y h =>
    obtain ⟨hq, hd, ht, hp⟩ := h.sourceOk hx
    exact ⟨fun hr => ⟨rfl, (hq hr).2⟩, hd, ht, hp⟩
  | emit y h =>
    obtain ⟨hq, hd, ht, hp⟩ := h.sourceOk hx
    exact ⟨hq, hd, ht, hp⟩
  | skip b hr => exact ⟨fun hn => absurd (hr.symm.trans hn) nofun, hx.defined, hx.timers, hx.parent⟩
  | stop => exact ⟨fun _ => ⟨rfl, rfl, rfl, rfl, rfl⟩, fun _ => rfl, nofun, hx.parent⟩

theorem SourcesMove.sourceOk {s t : State} (h : SourcesMove s t) (hs : ∀ n, SourceOk n (s.source n)) :
    ∀ n, SourceOk n (t.source n) := fun n => (h n).sourceOk (hs n)

/-! ### Definition, start and reset -/

/-- A record that passes the checks names a parent of a lower number (R72). -/
theorem parentOk_of_check {n : SourceNo} {f : SourceFields} {s : State} {r : SourceRecord}
    (h : checkSource n f s = some r) : ParentOk n r := by
  unfold checkSource at h
  split at h
  · next u k _ hk =>
    cases h
    unfold checkSourceKind at hk
    simp only [ParentOk]
    split at hk
    · split at hk <;> cases hk; trivial
    · split at hk
      · split at hk
        · obtain ⟨l, -, rfl⟩ := Option.map_eq_some_iff.mp hk; trivial
        · cases hk
      · split at hk
        · split at hk
          · split at hk
            · next hc => cases hk; exact ⟨hc.1, hc.2.2⟩
            · cases hk
          · cases hk
        · cases hk
  · cases h

/-- The timers with which a source starts (R74, R75). -/
theorem timersOk_start {n : SourceNo} {r : SourceRecord} (hp : ParentOk n r) {x : Source}
    (hx : x.lock = .await ∧ x.phase = 0 ∧ x.countdown = r.startCountdown ∧ x.watch = none ∧ x.standIn = none ∧
      x.absorbWindow = none) : TimersOk r x := by
  obtain ⟨h1, h2, h3, h4, h5, h6⟩ := hx
  rw [SourceRecord.startCountdown] at h3
  cases hk : r.kind <;> simp only [TimersOk, ParentOk, hk, h1, h2, h3, h4, h5, h6] at hp ⊢ <;> simp
  omega

theorem SourceOk.redefine {n : SourceNo} {x : Source} {r : SourceRecord} (hr : x.running = true) (hp : ParentOk n r) :
    SourceOk n (x.redefine r) where
  quiet h := absurd (hr.symm.trans h) nofun
  defined := nofun
  timers _ q hq := by cases hq; exact timersOk_start hp ⟨rfl, rfl, rfl, rfl, rfl, rfl⟩
  parent q hq := by cases hq; exact hp

theorem SourceOk.defineStopped {n : SourceNo} (x : Source) {r : SourceRecord} (hp : ParentOk n r) :
    SourceOk n (x.defineStopped r) where
  quiet _ := ⟨rfl, rfl, rfl, rfl, rfl⟩
  defined _ := rfl
  timers := nofun
  parent q hq := by cases hq; exact hp

theorem SourceOk.start {n : SourceNo} {x : Source} {r : SourceRecord} (h : SourceOk n x) (hx : x.record = some r) :
    SourceOk n (x.start r) where
  quiet := nofun
  defined hn := absurd (hx.symm.trans hn) nofun
  timers _ q hq := by
    obtain rfl : q = r := Option.some.inj (hq.symm.trans hx)
    exact timersOk_start (h.parent q hx) ⟨rfl, rfl, rfl, rfl, rfl, rfl⟩
  parent := h.parent

theorem SourceOk.reset {n : SourceNo} {x : Source} (h : SourceOk n x) : SourceOk n x.reset := by
  unfold Source.reset
  split
  · exact ⟨fun _ => ⟨rfl, rfl, rfl, rfl, rfl⟩, fun _ => rfl, nofun, h.parent⟩
  · exact h

theorem sourceOk_set {s : State} {n : SourceNo} {y : Source} (h : ∀ m, SourceOk m (s.source m)) (hy : SourceOk n y) :
    ∀ m, SourceOk m ((s.setSource n y).source m) := by
  intro m
  rw [State.source_setSource]
  split
  · next e => subst e; exact hy
  · exact h m

theorem sourceOk_defineSource (tag : Byte) (f : SourceFields) {s : State} (h : ∀ m, SourceOk m (s.source m)) :
    ∀ m, SourceOk m ((defineSource tag f s).source m) := by
  unfold defineSource withSource
  split
  · next n _ =>
    simp only
    split
    · exact h
    · next r hc =>
      split
      · next hr =>
        split
        · exact sourceOk_set h (.redefine hr (parentOk_of_check hc))
        · exact h
      · exact sourceOk_set h (.defineStopped _ (parentOk_of_check hc))
  · exact h

theorem sourceOk_startSource (tag b : Byte) {s : State} (h : ∀ m, SourceOk m (s.source m)) :
    ∀ m, SourceOk m ((startSource tag b s).source m) := by
  unfold startSource withSource
  split
  · next n _ =>
    simp only
    split
    · next r hx hr => exact sourceOk_set h ((h n).start hx)
    · exact h
  · exact h

theorem sourceOk_congr {s t : State} (ht : t.sources = s.sources) (h : ∀ m, SourceOk m (s.source m)) :
    ∀ m, SourceOk m (t.source m) := (SourcesMove.of_sources ht).sourceOk h

theorem sourceOk_resetDevice (tag : Byte) {s : State} (h : ∀ m, SourceOk m (s.source m)) :
    ∀ m, SourceOk m ((resetDevice tag s).source m) := by
  have htaken : ∀ m, SourceOk m ((takeAllEdges s).source m) := by
    refine takeAllEdges_induct (P := fun t => ∀ m, SourceOk m (t.source m)) (fun _ _ h => h) (fun t g n ep h => ?_)
      (fun t c h => (parentEdge_moves c t).all.sourceOk h) h
    exact sourceOk_congr (Work.sources_eq rfl ((Work.edgeToGroup (.nop 0) g n ep t).trans (Work.settle _ _))) h
  have hbegun : ∀ m, SourceOk m ((beginReset tag (takeAllEdges s)).source m) := fun m => by
    show SourceOk m (((takeAllEdges s).sources.map Source.reset)[m])
    rw [Fin.getElem_fin, Vector.getElem_map]
    exact (htaken m).reset
  unfold resetDevice
  simp only
  split
  · exact hbegun
  · next hp => exact sourceOk_congr (Work.sources_eq (i := .nop 0) rfl (Work.abandon _ (by simpa using hp))) hbegun

/-- What a frame's effect keeps, the frame keeps, when it does not read the link. -/
theorem sourceOk_of_takeCommand {i : Instr} {s t : State} {e : State → State} (h : takeCommand i s e = .next t)
    (hs : ∀ m, SourceOk m (s.source m))
    (he : ∀ u, (∀ m, SourceOk m (u.source m)) → ∀ m, SourceOk m ((e u).source m)) : ∀ m, SourceOk m (t.source m) := by
  rcases takeFrame_eq_next h with rfl | ⟨-, -, -, rfl⟩ | ⟨-, -, -, rfl⟩
  · exact hs
  · exact hs
  · exact he _ hs

theorem sourceOk_reset (p : List Instr) (n : SourceNo) : SourceOk n (({ State.reset with pending := p } : State).source n) := by
  have hx : ({ State.reset with pending := p } : State).source n = Source.undefined := by simp [State.source, State.reset]
  rw [hx]
  exact ⟨fun _ => ⟨rfl, rfl, rfl, rfl, rfl⟩, fun _ => rfl, nofun, nofun⟩

theorem exec_keeps_sourceOk {i : Instr} {s t : State} (h : exec i s = .next t) (hs : ∀ m, SourceOk m (s.source m)) :
    ∀ m, SourceOk m (t.source m) := by
  by_cases hp : i = .powerOn
  · subst hp; cases h; exact sourceOk_reset _
  by_cases hr : ∃ tag, i = .resetDevice tag
  · obtain ⟨tag, rfl⟩ := hr
    exact sourceOk_of_takeCommand h hs fun u => sourceOk_resetDevice tag
  by_cases hd : ∃ tag f, i = .defineSource tag f
  · obtain ⟨tag, f, rfl⟩ := hd
    exact sourceOk_of_takeCommand h hs fun u => sourceOk_defineSource tag f
  by_cases hst : ∃ tag b, i = .startSource tag b
  · obtain ⟨tag, b, rfl⟩ := hst
    exact sourceOk_of_takeCommand h hs fun u => sourceOk_startSource tag b
  exact (exec_moves h hp (fun tag e => hr ⟨tag, e⟩) (fun tag f e => hd ⟨tag, f, e⟩)
    (fun tag b e => hst ⟨tag, b, e⟩)).sourceOk hs

end Sys2Proof.Machine
end

section
/-! PROOFS. The obligation about the laws of sources (R71 to R91). -/

namespace Sys2Proof.Machine

open Sys2Proof.Safety

/-- Settles O56: each command moves a source by its kind, and a definition, a start and the reset set its times anew. -/
theorem sourceLawsAreKept : Obligations.SourceLawsAreKept := by
  intro s t h1 h2 h3 hstep
  have hs := (sourceLaws_iff s).mp ⟨h1, h2, h3⟩
  refine (sourceLaws_iff t).mpr ?_
  rcases step_cases s with ⟨-, e⟩ | ⟨c, rest, -, e⟩ <;> rw [e] at hstep
  · cases hstep
    exact sourceOk_congr (Work.sources_eq rfl (Work.tick (.nop 0) s)) hs
  · exact exec_keeps_sourceOk (s := { s with pending := rest }) hstep hs

end Sys2Proof.Machine
end

section
/-! SUPPORT. Which group a word address concerns, in byte addresses, and the class that follows (R2, R3, R52, R53). -/

namespace Sys2Proof.Machine

open Sys2Proof.Safety

/-! ### Ranges in byte addresses -/

/-- A word of the range, in byte addresses (R2). -/
theorem covers_iff {r : GroupRecord} (h : RecordOk r) (a : Nat) :
    r.covers a = true ↔ InRange r.base.toNat r.length (4 * a) := by
  have h4 := h.1
  simp only [GroupRecord.covers, Bool.and_eq_true, decide_eq_true_eq, InRange]
  simp only [GroupRecord.baseWord]
  constructor
  · rintro ⟨h1, h2⟩
    exact ⟨a - r.base.toNat / 4, by omega, by omega⟩
  · rintro ⟨k, hk, e⟩
    omega

/-- The sequence word, in byte addresses (R2). -/
theorem seqWord_iff {r : GroupRecord} (h : r.seqValid = true) (a : Nat) :
    r.seqWord = some a ↔ ∃ q, r.seqAddr = some q ∧ q.toNat = 4 * a := by
  unfold GroupRecord.seqValid at h
  unfold GroupRecord.seqWord
  rcases hq : r.seqAddr with - | q
  · simp
  · rw [hq] at h
    simp only [Bool.and_eq_true, decide_eq_true_eq] at h
    have h4 := h.1.1
    simp only [Option.map_some, Option.some.injEq, exists_eq_left']
    omega

/-- A group's sequence word does not lie in its own range (R3, check 5). -/
theorem not_covers_seqWord {r : GroupRecord} (h : r.seqValid = true) {a : Nat} (ha : r.seqWord = some a) : r.covers a = false := by
  unfold GroupRecord.seqValid at h
  unfold GroupRecord.seqWord at ha
  obtain ⟨q, hq, rfl⟩ := Option.map_eq_some_iff.mp ha
  rw [hq] at h
  simp only [Bool.and_eq_true, Bool.not_eq_true'] at h
  exact h.2

theorem touches_iff {r : GroupRecord} {a : Nat} : r.touches a = true ↔ r.covers a = true ∨ r.seqWord = some a := by
  simp [GroupRecord.touches]

/-- No word concerns two groups (R3, R53). -/
theorem touches_unique {s : State} (h : RangeLaw s) {g k : GroupNo} {x y : Group} {a : Nat} (hx : s.group g = some x)
    (hy : s.group k = some y) (hxa : x.record.touches a = true) (hya : y.record.touches a = true) : g = k := by
  by_contra hne
  have hc := h.2 g k hne x hx y hy
  simp only [GroupRecord.clearOf, Bool.and_eq_true, Bool.or_eq_true, Bool.not_eq_true', decide_eq_true_eq,
    GroupRecord.overlaps, Bool.and_eq_false_iff, decide_eq_false_iff_not] at hc
  obtain ⟨⟨⟨hover, hq⟩, hr⟩, hseq⟩ := hc
  have hrange : ∀ r : GroupRecord, r.covers a = true → r.baseWord ≤ a ∧ a < r.baseWord + r.length := fun r hr => by
    simpa [GroupRecord.covers] using hr
  rcases touches_iff.mp hxa with hxc | hxs <;> rcases touches_iff.mp hya with hyc | hys
  · have h1 := hrange _ hxc
    have h2 := hrange _ hyc
    omega
  · rw [hys, Option.elim_some, hxc] at hq; cases hq
  · rw [hxs, Option.elim_some, hyc] at hr; cases hr
  · rcases hseq with hs | hs
    · rw [hxs] at hs; cases hs
    · exact hs (hxs.trans hys.symm)

/-! ### The class of a word -/

/-- An enabled group has a class for each word that concerns it, and for no other. -/
theorem groupClass_eq_none {g : GroupNo} {x : Group} {a : Nat} :
    groupClass g x a = none ↔ x.state = .disabled ∨ x.record.touches a = false := by
  unfold groupClass GroupRecord.touches Group.enabled
  by_cases hs : x.state = .disabled
  · simp [hs]
  · by_cases hc : x.record.covers a = true
    · simp [hs, hc]
    · by_cases hq : x.record.seqWord = some a
      · simp [hs, hc, hq]
      · simp [hs, hc, hq]

theorem touches_of_groupClass {g : GroupNo} {x : Group} {a : Nat} {c : WordClass} (h : groupClass g x a = some c) :
    x.record.touches a = true := by
  by_contra hn
  rw [groupClass_eq_none.mpr (.inr (by simpa using hn))] at h
  cases h

/-- The class of a word is that which the one group it concerns gives it (R52, R53). -/
theorem classify_of_groupClass {s : State} (h : RangeLaw s) {g : GroupNo} {x : Group} {a : WordAddr} {c : WordClass}
    (hx : s.group g = some x) (hc : groupClass g x a.toNat = some c) : classify s a = c := by
  unfold classify
  rcases hf : (List.finRange 32).findSome? (fun g => (s.group g).bind (fun x => groupClass g x a.toNat)) with - | d
  · have := List.findSome?_eq_none_iff.mp hf g (List.mem_finRange g)
    rw [hx, Option.bind_some, hc] at this
    cases this
  · obtain ⟨k, -, hk⟩ := List.exists_of_findSome?_eq_some hf
    obtain ⟨y, hy, hd⟩ := Option.bind_eq_some_iff.mp hk
    obtain rfl := touches_unique h hx hy (touches_of_groupClass hc) (touches_of_groupClass hd)
    obtain rfl : y = x := Option.some.inj (hy.symm.trans hx)
    exact Option.some.inj (hd.symm.trans hc)

/-- A word that concerns no enabled group is of class PASS (R52). -/
theorem classify_of_none {s : State} {a : WordAddr}
    (h : ∀ g x, s.group g = some x → x.state = .disabled ∨ x.record.touches a.toNat = false) : classify s a = .pass := by
  unfold classify
  rw [List.findSome?_eq_none_iff.mpr fun g _ => ?_]
  · rfl
  · rcases hx : s.group g with - | x
    · rfl
    · exact groupClass_eq_none.mpr (h g x hx)

theorem groupClass_of_covers {g : GroupNo} {x : Group} {a : Nat} (hs : x.state ≠ .disabled) (hc : x.record.covers a = true) :
    groupClass g x a = some (rangeClass g x (BitVec.ofNat 8 (a - x.record.baseWord))) := by
  simp [groupClass, Group.enabled, hs, hc]

theorem groupClass_of_seqWord {g : GroupNo} {x : Group} {a : Nat} (hs : x.state ≠ .disabled) (hc : x.record.covers a = false)
    (hq : x.record.seqWord = some a) : groupClass g x a = some (.seqProtected g) := by
  simp [groupClass, Group.enabled, hs, hc, hq]

/-- A word that concerns a DISABLED group is of class PASS, since it concerns no other group (R52, R53). -/
theorem classify_of_disabled {s : State} (h : RangeLaw s) {g : GroupNo} {x : Group} {a : WordAddr} (hx : s.group g = some x)
    (hs : x.state = .disabled) (ha : x.record.touches a.toNat = true) : classify s a = .pass := by
  refine classify_of_none fun k y hy => ?_
  by_cases hya : y.record.touches a.toNat = true
  · obtain rfl := touches_unique h hx hy ha hya
    obtain rfl : y = x := Option.some.inj (hy.symm.trans hx)
    exact .inl hs
  · exact .inr (by simpa using hya)

end Sys2Proof.Machine
end

section
/-! PROOFS. The obligation about the classes of host words (R52). -/

namespace Sys2Proof.Machine

open Sys2Proof.Safety

/-- The class of a word of an enabled group's range, by state and kind (R52). -/
theorem rangeClass_eq {g : GroupNo} {x : Group} {k : Nat} (hs : x.state ≠ .disabled) (hk : k < 256) :
    rangeClass g x (BitVec.ofNat 8 k) =
      (match x.state, x.record.kind with
        | .disabled, _ => .pass
        | .draining, .output => .draining g (BitVec.ofNat 8 k)
        | .live, .output | .safe, .output =>
          if k = x.record.sealOffset.toNat then .outputSeal g (BitVec.ofNat 8 k) else .outputData g (BitVec.ofNat 8 k)
        | .live, .input | .safe, .input | .draining, .input =>
          if x.record.stampOffset = some (BitVec.ofNat 8 k) then .inputStamp g (BitVec.ofNat 8 k)
          else .inputData g (BitVec.ofNat 8 k)) := by
  have hseal : BitVec.ofNat 8 k = x.record.sealOffset ↔ k = x.record.sealOffset.toNat := by
    rw [← BitVec.toNat_inj, BitVec.toNat_ofNat, Nat.mod_eq_of_lt hk]
  unfold rangeClass
  cases hst : x.state <;> cases hki : x.record.kind <;> simp only [hseal, reduceCtorEq, if_false, if_true]
  · exact absurd hst hs
  · exact absurd hst hs

/-- Settles O28: at most one group is concerned with a word, and its own rule gives the class. -/
theorem hostWordClasses : Obligations.HostWordClasses := by
  intro s a h
  refine ⟨fun g x k hx hk ha => ?_, fun g x q hx hq ha => ?_, fun hnone => ?_⟩
  · obtain ⟨hok, -⟩ := h.1 g x hx
    have hcov : x.record.covers a.toNat = true := (covers_iff hok _).mpr ⟨k, hk, ha⟩
    by_cases hs : x.state = .disabled
    · rw [classify_of_disabled h hx hs (touches_iff.mpr (.inl hcov)), hs]
    · have hoff : a.toNat - x.record.baseWord = k := by
        have := hok.1
        unfold GroupRecord.baseWord
        omega
      rw [classify_of_groupClass h hx (groupClass_of_covers hs hcov), hoff]
      exact rangeClass_eq hs (Nat.lt_of_lt_of_le hk hok.2.2.1)
  · obtain ⟨-, hseq⟩ := h.1 g x hx
    have hw := (seqWord_iff hseq a.toNat).mpr ⟨q, hq, ha.symm⟩
    split
    · next hs => exact classify_of_disabled h hx hs (touches_iff.mpr (.inr hw))
    · next hs => exact classify_of_groupClass h hx (groupClass_of_seqWord hs (not_covers_seqWord hseq hw) hw)
  · refine classify_of_none fun g x hx => ?_
    by_cases hs : x.state = .disabled
    · exact .inl hs
    · obtain ⟨hr, hq⟩ := hnone g x hx hs
      obtain ⟨hok, hseq⟩ := h.1 g x hx
      refine .inr (Bool.eq_false_iff.mpr fun ht => ?_)
      rcases touches_iff.mp ht with hc | hw
      · exact hr ((covers_iff hok _).mp hc)
      · obtain ⟨q, hqa, hqe⟩ := (seqWord_iff hseq _).mp hw
        exact hq q hqa hqe

end Sys2Proof.Machine
end

section
/-! SUPPORT. The host path as a step goes on (R49, R51, R55): the request inside, the port it waits for, and the words that no host
write reaches (R27, R58, R207). -/

namespace Sys2Proof.Machine

open Sys2Proof.Safety

/-! ### The law in parts -/

/-- The request inside the host path is in step with itself (R49, R55, R56, R61). -/
structure ActiveOk (a : ActiveRequest) : Prop where
  short : a.request.words.length ≤ Config.burstWords
  taken : a.taken ≤ a.request.words.length
  run : a.run.length ≤ a.taken
  read : a.request.dir = .read → a.data.length + a.run.length = a.taken
  write : a.request.dir = .write → a.data = []
  waitsRun : a.wait = .run → a.run ≠ []
  waitsLayered : ∀ w l, a.wait = .layered w l → a.run = [] ∧ a.taken < a.request.words.length ∧ a.request.dir = .read

/-- The host path is in step with its requests and with the port (R49, R51). -/
structure PathCore (s : State) : Prop where
  waiting : ∀ r ∈ s.host.waiting, r.words.length ≤ Config.burstWords
  active : ∀ a, s.host.active = some a → ActiveOk a
  portRun : ∀ u, s.port = some u → u.purpose = .run → ∃ a, s.host.active = some a ∧ a.wait = .run ∧ u.request = a.runRequest
  portLayered : ∀ u, s.port = some u → u.purpose = .layered → ∃ a w l, s.host.active = some a ∧ a.wait = .layered w l

/-- The host path stands still only at a gap, and holds nothing off while it is free, unless a reset holds it (R49, R55, R69). -/
structure PathStands (s : State) : Prop where
  stands : ∀ a, s.host.active = some a → a.wait = .nothing → s.resetting.isSome = true ∨ a.taken ∈ a.gaps
  free : s.host.active = none → s.resetting = none → s.host.waiting = []

/-- The word address lies in an enabled output group's range or is its sequence word. -/
def Guarded (s : State) (n : Nat) : Prop :=
  ∃ g x, s.group g = some x ∧ x.record.kind = .output ∧ x.state ≠ .disabled ∧ x.record.touches n = true

/-- No word of a write run that has not been issued is guarded (R27, R58). -/
def RunClear (s : State) : Prop :=
  ∀ a, s.host.active = some a → a.request.dir = .write → (∀ u, s.port = some u → u.purpose ≠ .run) →
    ∀ k, k < a.run.length → ¬ Guarded s (a.runAddr k).toNat

/-- No word of a write run granted since the port was p is guarded (R207). -/
def IssuedClear (p : Option PortUse) (s : State) : Prop :=
  ∀ q, s.port = some ⟨.run, q⟩ → s.port ≠ p → q.dir = .write → ∀ k, k < q.words.length →
    ¬ Guarded s (q.addr + BitVec.ofNat 24 k).toNat

/-- What keeps host writes away from enabled output groups. -/
structure Guard (p : Option PortUse) (s : State) : Prop where
  ranges : RangeLaw s
  run : RunClear s
  issued : IssuedClear p s

/-- The host path within a step that began with the port p; h is what the guard needs of the step's beginning. -/
structure Path (h : Prop) (p : Option PortUse) (s : State) : Prop where
  core : PathCore s
  guard : h → Guard p s

theorem hostLaw_iff (s : State) : HostLaw s ↔ PathCore s ∧ PathStands s := by
  constructor
  · rintro ⟨hw, ha, hf, hp⟩
    refine ⟨⟨hw, fun a h => ?_, fun u hu hr => (hp u hu).1 hr, fun u hu hl => ?_⟩, fun a h hn => ?_, hf⟩
    · obtain ⟨h1, h2, h3, h4, h5, h6⟩ := ha a h
      refine ⟨h1, h2, h3, h4, h5, fun e => ?_, fun w l e => ?_⟩
      · rw [e] at h6; exact h6
      · rw [e] at h6; exact h6
    · obtain ⟨a, h, h1, h2⟩ := (hp u hu).2 hl
      rcases hw : a.wait with _ | _ | ⟨w, l⟩
      · exact absurd hw h2
      · exact absurd hw h1
      · exact ⟨a, w, l, h, hw⟩
    · have h6 := (ha a h).2.2.2.2.2
      rw [hn] at h6; exact h6
  · rintro ⟨⟨hw, ha, hr, hl⟩, ⟨hs, hf⟩⟩
    refine ⟨hw, fun a h => ?_, hf, fun u hu => ⟨hr u hu, fun e => ?_⟩⟩
    · obtain ⟨h1, h2, h3, h4, h5, h6, h7⟩ := ha a h
      refine ⟨h1, h2, h3, h4, h5, ?_⟩
      rcases he : a.wait with _ | _ | ⟨w, l⟩ <;> simp only
      · exact hs a h he
      · exact h6 he
      · exact h7 w l he
    · obtain ⟨a, w, l, h, e'⟩ := hl u hu e
      exact ⟨a, h, by simp [e'], by simp [e']⟩

theorem runLaw_iff (s : State) : RunLaw s ↔ RunClear s := by
  refine forall_congr' fun a => forall_congr' fun _ => forall_congr' fun _ => forall_congr' fun _ => forall_congr' fun k =>
    forall_congr' fun _ => ?_
  constructor
  · rintro h ⟨g, x, hx, hk, hs, ht⟩
    exact absurd ((h g x hx hk hs).symm.trans ht) nofun
  · intro h g x hx hk hs
    exact Bool.eq_false_iff.mpr fun ht => h ⟨g, x, hx, hk, hs, ht⟩

/-! ### Acts beside the host path -/

/-- A move enables no group. -/
theorem Group.Moves.enabled {free n : Nat} {x y : Group} (h : x.Moves free y n) (hy : y.state ≠ .disabled) :
    x.state ≠ .disabled := by
  cases h with
  | swap c hs | stale hs => simp [hs]
  | enterSafe b hk hs | resume hk hs => simp [hs]
  | drainOutput hk hs | drainInput bk hk hs => rcases hs with hs | hs <;> simp [hs]
  | merge | append | damage | discard | arm | coalesce | behind | countHold | hold | unhold => exact hy

/-- Only ENABLE_GROUP enables an output group (R27). -/
theorem Group.Changes.enabled {i : Instr} {s : State} {x y : Group} {d : Stores} (h : x.Changes i s y d)
    (hi : ∀ tag b, i ≠ .enableGroup tag b) (hk : y.record.kind = .output) (hy : y.state ≠ .disabled) : x.state ≠ .disabled := by
  cases h with
  | moves y n hm => exact hm.enabled hy
  | commit img hk hs => rcases hs with hs | hs <;> simp [hs]
  | complete c hk =>
    intro hs
    simp [hs] at hy
  | enableOutput hk hs he =>
    obtain ⟨tag, b, rfl⟩ := he
    exact absurd rfl (hi tag b)
  | enableInput hin => exact absurd (hin.symm.trans hk) nofun
  | drained | disableOutput | disableInput => exact absurd rfl hy
  | safe | capture | fill | captured | loadSafe => exact hy

/-- No act but that of ENABLE_GROUP guards a word anew (R27). -/
theorem Act.guarded {i : Instr} {s t : State} (h : Act i s t) (hi : ∀ tag b, i ≠ .enableGroup tag b) {n : Nat}
    (ht : Guarded t n) : Guarded s n := by
  obtain ⟨k, z, hz, hkind, hstate, htouch⟩ := ht
  rcases h.groupsAct with ⟨hg, -⟩ | ⟨g, x, y, hx, hg, hc⟩ | ⟨g, tag, f, -, -, -, hg, -⟩ | ⟨g, x, tag, b, -, -, -, hg, -⟩ | ⟨hg, -⟩
  · rw [group_of_groups_eq hg] at hz
    exact ⟨k, z, hz, hkind, hstate, htouch⟩
  · rw [group_of_groups_set hg] at hz
    split at hz
    · next e =>
      cases hz
      have hr := hc.record
      exact ⟨g, x, hx, hr ▸ hkind, hc.enabled hi hkind hstate, hr ▸ htouch⟩
    · exact ⟨k, z, hz, hkind, hstate, htouch⟩
  · rw [group_of_groups_set hg] at hz
    split at hz
    · cases hz; exact absurd rfl hstate
    · exact ⟨k, z, hz, hkind, hstate, htouch⟩
  · rw [group_of_groups_set hg] at hz
    split at hz
    · cases hz
    · exact ⟨k, z, hz, hkind, hstate, htouch⟩
  · rw [group_of_groups_map hg] at hz
    obtain ⟨x, -, rfl⟩ := Option.map_eq_some_iff.mp hz
    rcases x.abandoned_cases with ⟨hs, e⟩ | ⟨-, e⟩
    · rw [e] at hstate; exact absurd hs hstate
    · rw [e] at hstate; exact absurd rfl hstate

theorem Work.guarded {i : Instr} {s t : State} (h : Work i s t) (hi : ∀ tag b, i ≠ .enableGroup tag b) {n : Nat}
    (ht : Guarded t n) : Guarded s n := by
  induction h with
  | refl => exact ht
  | tail _ ha ih => exact ih (ha.guarded hi ht)

theorem Work.rangeLaw {i : Instr} {s t : State} (h : Work i s t) (hs : RangeLaw s) : RangeLaw t := by
  induction h with
  | refl => exact hs
  | tail _ ha ih => exact ha.rangeLaw ih

/-- The host path, the port and the reset stay as they are. -/
def HostKept (s t : State) : Prop := t.host = s.host ∧ t.port = s.port ∧ t.resetting = s.resetting

theorem HostKept.refl (s : State) : HostKept s s := ⟨rfl, rfl, rfl⟩

theorem HostKept.trans {s t u : State} (h : HostKept s t) (h' : HostKept t u) : HostKept s u :=
  ⟨h'.1.trans h.1, h'.2.1.trans h.2.1, h'.2.2.trans h.2.2⟩

theorem PathCore.congr {s t : State} (h : PathCore s) (hh : t.host = s.host) (hp : t.port = s.port) : PathCore t := by
  obtain ⟨h1, h2, h3, h4⟩ := h
  constructor
  · rw [hh]; exact h1
  · rw [hh]; exact h2
  · rw [hh, hp]; exact h3
  · rw [hh, hp]; exact h4

/-- The guard holds on where no word is guarded anew. -/
theorem Guard.congr {p : Option PortUse} {s t : State} (h : Guard p s) (hh : t.host = s.host) (hp : t.port = s.port)
    (hr : RangeLaw t) (hg : ∀ n, Guarded t n → Guarded s n) : Guard p t where
  ranges := hr
  run a ha hd hu k hk hn := h.run a (hh ▸ ha) hd (fun u h => hu u (hp ▸ h)) k hk (hg _ hn)
  issued q hq hne hd k hk hn := h.issued q (hp ▸ hq) (hp ▸ hne) hd k hk (hg _ hn)

/-- Acts of a command other than ENABLE_GROUP that leave the host path and the port alone. -/
theorem Path.beside {h : Prop} {p : Option PortUse} {i : Instr} {s t : State} (hs : Path h p s) (hw : Work i s t)
    (hi : ∀ tag b, i ≠ .enableGroup tag b) (hk : HostKept s t) : Path h p t :=
  ⟨hs.core.congr hk.1 hk.2.1, fun hyp =>
    (hs.guard hyp).congr hk.1 hk.2.1 (hw.rangeLaw (hs.guard hyp).ranges) fun _ => hw.guarded hi⟩

theorem PathStands.congr {s t : State} (h : PathStands s) (h1 : t.host = s.host) (h3 : t.resetting = s.resetting) :
    PathStands t := by
  obtain ⟨hs, hf⟩ := h
  constructor
  · rw [h1, h3]; exact hs
  · rw [h1, h3]; exact hf

theorem guarded_congr {s t : State} (hg : t.groups = s.groups) (n : Nat) : Guarded t n ↔ Guarded s n := by
  simp only [Guarded, group_of_groups_eq hg]

theorem rangeLaw_congr {s t : State} (hg : t.groups = s.groups) (h : RangeLaw s) : RangeLaw t :=
  rangeLaw_of_records (fun k => by rw [group_of_groups_eq hg]) h

theorem Path.aside {h : Prop} {p : Option PortUse} {s t : State} (hs : Path h p s) (ha : Aside s t) : Path h p t := by
  obtain ⟨h1, h2, -, h4⟩ := ha
  exact ⟨hs.core.congr h1 h2, fun hyp => (hs.guard hyp).congr h1 h2 (rangeLaw_congr h4 (hs.guard hyp).ranges)
    fun n => (guarded_congr h4 n).mp⟩

theorem Aside.kept {s t : State} (h : Aside s t) : HostKept s t := ⟨h.1, h.2.1, h.2.2.1⟩

/-! ### The request inside changes -/

/-- The outstanding request is none of the host path's. -/
def PortElsewhere (s : State) : Prop := ∀ u, s.port = some u → u.purpose ≠ .run ∧ u.purpose ≠ .layered

theorem PathCore.elsewhere_of_nothing {s : State} (h : PathCore s) {a : ActiveRequest} (ha : s.host.active = some a)
    (hw : a.wait = .nothing) : PortElsewhere s := by
  refine fun u hu => ⟨fun e => ?_, fun e => ?_⟩
  · obtain ⟨b, hb, hr, -⟩ := h.portRun u hu e
    obtain rfl : b = a := Option.some.inj (hb.symm.trans ha)
    exact absurd (hw.symm.trans hr) nofun
  · obtain ⟨b, w, l, hb, hl⟩ := h.portLayered u hu e
    obtain rfl : b = a := Option.some.inj (hb.symm.trans ha)
    exact absurd (hw.symm.trans hl) nofun

theorem PathCore.elsewhere_of_none {s : State} (h : PathCore s) (ha : s.host.active = none) : PortElsewhere s := by
  refine fun u hu => ⟨fun e => ?_, fun e => ?_⟩
  · obtain ⟨b, hb, -⟩ := h.portRun u hu e
    exact absurd (ha.symm.trans hb) nofun
  · obtain ⟨b, w, l, hb, -⟩ := h.portLayered u hu e
    exact absurd (ha.symm.trans hb) nofun

theorem elsewhere_of_free {s : State} (h : s.port = none) : PortElsewhere s := fun u hu => by
  rw [h] at hu; cases hu

/-- The request inside changes while the port is not its own. -/
theorem PathCore.setHost {s : State} {hp : HostPath} (h : PathCore s) (he : PortElsewhere s)
    (hw : ∀ r ∈ hp.waiting, r ∈ s.host.waiting) (ha : ∀ b, hp.active = some b → ActiveOk b) : PathCore (s.setHost hp) where
  waiting r hr := h.waiting r (hw r hr)
  active := ha
  portRun u hu e := absurd e (he u hu).1
  portLayered u hu e := absurd e (he u hu).2

/-- The run of the new request holds no guarded word. -/
theorem Guard.setHost {p : Option PortUse} {s : State} {hp : HostPath} (h : Guard p s)
    (hb : ∀ b, hp.active = some b → b.request.dir = .write → ∀ k, k < b.run.length → ¬ Guarded s (b.runAddr k).toNat) :
    Guard p (s.setHost hp) where
  ranges := rangeLaw_congr rfl h.ranges
  run b hb' hd _ k hk := hb b hb' hd k hk
  issued := h.issued

theorem Path.setHost {h : Prop} {p : Option PortUse} {s : State} {hp : HostPath} (hs : Path h p s) (he : PortElsewhere s)
    (hw : ∀ r ∈ hp.waiting, r ∈ s.host.waiting) (ha : ∀ b, hp.active = some b → ActiveOk b)
    (hb : h → Guard p s → ∀ b, hp.active = some b → b.request.dir = .write → ∀ k, k < b.run.length →
      ¬ Guarded s (b.runAddr k).toNat) : Path h p (s.setHost hp) :=
  ⟨hs.core.setHost he hw ha, fun hyp => (hs.guard hyp).setHost (hb hyp (hs.guard hyp))⟩

theorem Path.setActive {h : Prop} {p : Option PortUse} {s : State} {b : ActiveRequest} (hs : Path h p s) (he : PortElsewhere s)
    (ha : ActiveOk b) (hb : h → Guard p s → b.request.dir = .write → ∀ k, k < b.run.length → ¬ Guarded s (b.runAddr k).toNat) :
    Path h p (s.setActive (some b)) :=
  hs.setHost he (fun _ hr => hr) (fun c hc => by cases hc; exact ha) fun hyp hg c hc => by cases hc; exact hb hyp hg

/-! ### Words -/

/-- A write word that is forwarded is not guarded (R55, R58). -/
theorem not_guarded_of_forwarded {s : State} (h : RangeLaw s) {addr : WordAddr}
    (hf : forwarded s .write (classify s addr) = true) : ¬ Guarded s addr.toNat := by
  rintro ⟨g, x, hx, hk, hs, ht⟩
  rcases hc : groupClass g x addr.toNat with - | c
  · rcases groupClass_eq_none.mp hc with h | h
    · exact hs h
    · exact absurd (h.symm.trans ht) nofun
  · rw [classify_of_groupClass h hx hc] at hf
    obtain ⟨-, ⟨-, rfl⟩ | ⟨-, -, rfl⟩⟩ := groupClass_eq_some hc
    · rcases rangeClass_cases g x (BitVec.ofNat 8 (addr.toNat - x.record.baseWord)) with
        ⟨-, -, e⟩ | ⟨-, -, -, e⟩ | ⟨-, -, -, e⟩ | ⟨hi, -, e⟩ | ⟨hi, -, e⟩
      · rw [e] at hf; cases hf
      · rw [e] at hf; cases hf
      · rw [e] at hf; cases hf
      · exact absurd (hk.symm.trans hi) nofun
      · exact absurd (hk.symm.trans hi) nofun
    · cases hf

/-- A word that is taken without the port. -/
theorem ActiveOk.tookWord {a : ActiveRequest} {w : PortWord} (h : ActiveOk a) (hr : a.run = []) (hn : a.wait = .nothing)
    (hw : a.request.words[a.taken]? = some w) (refused : Bool) {d : Option Word}
    (hd : a.request.dir = .read ↔ d.isSome = true) : ActiveOk (a.tookWord refused d) := by
  have hlen := (List.getElem?_eq_some_iff.mp hw).1
  refine ⟨h.short, hlen, by simp [ActiveRequest.tookWord, hr], fun hdir => ?_, fun hdir => ?_, fun e => ?_, fun v l e => ?_⟩
  · have hread := h.read hdir
    obtain ⟨v, rfl⟩ := Option.isSome_iff_exists.mp (hd.mp hdir)
    rw [hr] at hread
    simp only [ActiveRequest.tookWord, hr, Option.toList_some, List.length_append, List.length_nil, List.length_singleton]
    simp only [List.length_nil] at hread
    omega
  · have hnone : d = none := by
      rcases d with - | v
      · rfl
      · have := hd.mpr rfl
        exact absurd (hdir.symm.trans this) nofun
    simp only [ActiveRequest.tookWord, hnone, h.write hdir]
    rfl
  · exact absurd (hn.symm.trans e) nofun
  · exact absurd (hn.symm.trans e) nofun

theorem ActiveOk.layered {a : ActiveRequest} {w : PortWord} (h : ActiveOk a) (hr : a.run = [])
    (hw : a.request.words[a.taken]? = some w) (hd : a.request.dir = .read) (v : Word) (l : Lanes) :
    ActiveOk { a with wait := .layered v l } :=
  ⟨h.short, h.taken, h.run, h.read, h.write, nofun, fun _ _ _ => ⟨hr, (List.getElem?_eq_some_iff.mp hw).1, hd⟩⟩

theorem ActiveOk.forward {a : ActiveRequest} {w : PortWord} (h : ActiveOk a) (hn : a.wait = .nothing)
    (hw : a.request.words[a.taken]? = some w) : ActiveOk { a with run := a.run ++ [w], taken := a.taken + 1 } := by
  have hlen := (List.getElem?_eq_some_iff.mp hw).1
  have hrun := h.run
  refine ⟨h.short, hlen, by simpa using hrun, fun hd => ?_, h.write, fun e => ?_, fun v l e => ?_⟩
  · have := h.read hd
    simp only [List.length_append, List.length_singleton]
    omega
  · exact absurd (hn.symm.trans e) nofun
  · exact absurd (hn.symm.trans e) nofun

theorem ActiveOk.ask {a : ActiveRequest} (h : ActiveOk a) (hr : a.run ≠ []) : ActiveOk { a with wait := .run } :=
  ⟨h.short, h.taken, h.run, h.read, h.write, fun _ => hr, nofun⟩

/-- A forwarded word stands behind the words of the open run. -/
theorem runAddr_forward {a : ActiveRequest} (h : a.run.length ≤ a.taken) (w : PortWord) (k : Nat) :
    ({ a with run := a.run ++ [w], taken := a.taken + 1 } : ActiveRequest).runAddr k =
      if k = a.run.length then a.nextAddr else a.runAddr k := by
  unfold ActiveRequest.runAddr ActiveRequest.nextAddr
  simp only [List.length_append, List.length_singleton]
  split
  · next e => rw [show a.taken + 1 - (a.run.length + 1) + k = a.taken by omega]
  · rw [show a.taken + 1 - (a.run.length + 1) + k = a.taken - a.run.length + k by omega]

/-! ### The host path goes on -/

theorem stageWord_kept (g : GroupNo) (off : Byte) (w : PortWord) (s : State) : HostKept s (stageWord g off w s).2 := by
  have hrefuse : ∀ x f, HostKept s (refuseForPool g x f off s) := fun x f => by
    unfold refuseForPool
    simp only
    split <;> exact .refl s
  rcases stageWord_cases g off w s with e | ⟨x, f, -, -, -, ⟨-, e⟩ | ⟨-, -, e⟩ | ⟨-, -, e⟩⟩ <;> rw [e]
  · exact .refl s
  · exact .refl s
  · exact hrefuse x f
  · exact .refl s

theorem sealImage_kept (g : GroupNo) (s : State) : HostKept s (sealImage g s) := by
  rcases sealImage_cases g s with e | ⟨x, f, -, -, ⟨-, e⟩ | ⟨-, -, e⟩ | ⟨a, -, -, -, e⟩ | ⟨a, -, -, -, e⟩⟩ <;> rw [e] <;>
    exact .refl s

theorem stampWrite_kept (g : GroupNo) (w : PortWord) (s : State) : HostKept s (stampWrite g w s) := by
  rcases stampWrite_cases g w s with e | ⟨x, -, e | e⟩ <;> rw [e] <;> exact .refl s

theorem Path.takeLayered {h : Prop} {p : Option PortUse} {s : State} {a : ActiveRequest} {w : PortWord} (hs : Path h p s)
    (ha : s.host.active = some a) (hn : a.wait = .nothing) (hr : a.run = []) (hw : a.request.words[a.taken]? = some w)
    (hd : a.request.dir = .read) (v : Word × Lanes) : Path h p (takeLayered a v s) := by
  have hok := hs.core.active a ha
  have he := hs.core.elsewhere_of_nothing ha hn
  have hwrite : a.request.dir ≠ .write := by simp [hd]
  unfold Sys2Proof.Machine.takeLayered
  split
  · exact hs.setActive he (hok.tookWord hr hn hw _ (by simp [hd])) fun _ _ e => absurd e hwrite
  · exact hs.setActive he (hok.layered hr hw hd _ _) fun _ _ e => absurd e hwrite

/-- A word that is not forwarded takes its effect, with no open run before it (R55). -/
theorem Path.takeWord {h : Prop} {p : Option PortUse} {s : State} {a : ActiveRequest} {w : PortWord} {c : WordClass}
    {addr : WordAddr} (hs : Path h p s) (ha : s.host.active = some a) (hn : a.wait = .nothing) (hr : a.run = [])
    (hw : a.request.words[a.taken]? = some w) (hc : classify s addr = c) : Path h p (takeWord a w c s) := by
  have hok := hs.core.active a ha
  have hnorun : ∀ {t : State} {r : Bool} {d : Option Word}, h → Guard p t → (a.tookWord r d).request.dir = .write →
      ∀ k, k < (a.tookWord r d).run.length → ¬ Guarded t ((a.tookWord r d).runAddr k).toNat := fun _ _ _ k hk => by
    simp [ActiveRequest.tookWord, hr] at hk
  have hdone : ∀ {t : State} (r : Bool) (d : Option Word), Path h p t → HostKept s t →
      (a.request.dir = .read ↔ d.isSome = true) → Path h p (t.setActive (some (a.tookWord r d))) := fun r d ht hk hd =>
    ht.setActive (ht.core.elsewhere_of_nothing (hk.1 ▸ ha) hn) (hok.tookWord hr hn hw r hd) hnorun
  unfold Sys2Proof.Machine.takeWord
  split
  · next g off hd =>
    obtain ⟨x, hx, hk, hst, ho⟩ := classify_staged (.inl hc)
    exact hdone _ none (hs.beside (Work.stageWord (i := .nop 0) w hx hk hst ho) nofun (stageWord_kept g off w s))
      (stageWord_kept g off w s) (by simp [hd])
  · next g off hd =>
    obtain ⟨x, hx, hk, hst, ho⟩ := classify_staged (.inr hc)
    have hkept := (stageWord_kept g off w s).trans (sealImage_kept g (stageWord g off w s).2)
    exact hdone _ none (hs.beside ((Work.stageWord (i := .nop 0) w hx hk hst ho).trans (Work.sealImage _ g _)) nofun hkept)
      hkept (by simp [hd])
  · next hd => exact hdone _ none hs (.refl s) (by simp [hd])
  · next hd => exact hdone _ none hs (.refl s) (by simp [hd])
  · next g off hd =>
    obtain ⟨x, hx, -, hst⟩ := classify_stamp hc
    exact hdone _ none (hs.beside (Work.stampWrite (i := .nop 0) w hx hst) nofun (stampWrite_kept g w s))
      (stampWrite_kept g w s) (by simp [hd])
  · next hd => exact hs.takeLayered ha hn hr hw hd _
  · next hd => exact hs.takeLayered ha hn hr hw hd _
  · next hd => exact hs.takeLayered ha hn hr hw hd _
  · next hd => exact hdone _ (some _) hs (.refl s) (by simp [hd])
  · next hd => exact hdone _ (some _) hs (.refl s) (by simp [hd])
  all_goals exact hs

theorem Path.takeWords {h : Prop} {p : Option PortUse} {s : State} (n : Nat) (hs : Path h p s) : Path h p (takeWords n s) := by
  refine takeWords_induct (P := fun t => Path h p t) ?_ ?_ ?_ ?_ n s hs
  · exact fun t a w c ht ha hn _ hw hc _ hr => ht.takeWord ha hn hr hw hc.symm
  · intro t a w ht ha hn _ hw hf
    have hok := ht.core.active a ha
    refine ht.setActive (ht.core.elsewhere_of_nothing ha hn) (hok.forward hn hw) fun _ hg hd k hk => ?_
    simp only [List.length_append, List.length_singleton] at hk
    rw [runAddr_forward hok.run w k]
    split
    · exact not_guarded_of_forwarded hg.ranges ((show a.request.dir = .write from hd) ▸ hf)
    · exact hg.run a ha hd (fun u hu => (ht.core.elsewhere_of_nothing ha hn u hu).1) k (by omega)
  · intro t a ht ha hn _ hr
    exact ht.setActive (ht.core.elsewhere_of_nothing ha hn) ((ht.core.active a ha).ask hr) fun _ hg hd k hk =>
      hg.run a ha hd (fun u hu => (ht.core.elsewhere_of_nothing ha hn u hu).1) k hk
  · intro t a ht ha hn _ _ _
    exact ht.setHost (ht.core.elsewhere_of_nothing ha hn) (fun _ hr => hr) nofun fun _ _ => nofun

/-- The parameters of a request just accepted. -/
theorem activeOk_accepted {r : HostRequest} (h : r.words.length ≤ Config.burstWords) : ActiveOk (ActiveRequest.accepted r) :=
  ⟨h, Nat.zero_le _, Nat.le_refl _, fun _ => rfl, fun _ => rfl, nofun, nofun⟩

theorem Path.acceptRequest {h : Prop} {p : Option PortUse} {s : State} {r : HostRequest} (hs : Path h p s)
    (ha : s.host.active = none) (hr : r.words.length ≤ Config.burstWords) : Path h p (acceptRequest r s) := by
  unfold Sys2Proof.Machine.acceptRequest
  have he := hs.core.elsewhere_of_none ha
  split
  · exact hs.setHost he (fun _ hr => hr) nofun fun _ _ => nofun
  · exact hs.setActive he (activeOk_accepted hr) fun _ _ _ k hk => absurd hk (Nat.not_lt_zero k)

theorem Path.runHost {h : Prop} {p : Option PortUse} {s : State} (hs : Path h p s) : Path h p (runHost s) := by
  refine runHost_induct (P := fun t => Path h p t) (fun t ht => ht.takeWords _) (fun t r rest ht ha hw => ?_) hs
  have hmem : ∀ q ∈ r :: rest, q ∈ t.host.waiting := fun q hq => hw ▸ hq
  refine Path.acceptRequest (ht.setHost (ht.core.elsewhere_of_none ha) (fun q hq => hmem q (List.mem_cons_of_mem _ hq)) ?_ ?_) ha
    (ht.core.waiting r (hmem r List.mem_cons_self))
  · exact fun b hb => absurd (ha.symm.trans hb) nofun
  · exact fun _ _ b hb => absurd (ha.symm.trans hb) nofun

end Sys2Proof.Machine
end

section
/-! SUPPORT. The host path stands still only where it waits (R55), and what the end of a step and the reset make of it. -/

namespace Sys2Proof.Machine

open Sys2Proof.Safety

/-! ### Where the host path comes to rest -/

theorem takeWord_waiting (a : ActiveRequest) (w : PortWord) (c : WordClass) (s : State) :
    (takeWord a w c s).host.waiting = s.host.waiting := by
  have hl : ∀ v, (takeLayered a v s).host.waiting = s.host.waiting := by
    intro v; unfold takeLayered; split <;> rfl
  unfold takeWord
  split
  · next g off _ => exact (congrArg HostPath.waiting (stageWord_kept g off w s).1 :)
  · next g off _ => exact (congrArg HostPath.waiting ((stageWord_kept g off w s).trans (sealImage_kept g _)).1 :)
  · rfl
  · rfl
  · next g off _ => exact (congrArg HostPath.waiting (stampWrite_kept g w s).1 :)
  · exact hl _
  · exact hl _
  · exact hl _
  all_goals rfl

theorem takeWords_hostWaiting (n : Nat) (s : State) : (takeWords n s).host.waiting = s.host.waiting := by
  refine takeWords_induct (P := fun t => t.host.waiting = s.host.waiting) ?_ ?_ ?_ ?_ n s rfl
  · exact fun t a w c ht _ _ _ _ _ _ _ => (takeWord_waiting a w c t).trans ht
  · exact fun _ _ _ ht _ _ _ _ _ => ht
  · exact fun _ _ ht _ _ _ _ => ht
  · exact fun _ _ ht _ _ _ _ _ => ht

/-- With rounds enough for the words that are left, the request comes to wait, or to a gap, or to its response (R55). -/
theorem takeWords_rests : ∀ (n : Nat) (s : State),
    (∀ a, s.host.active = some a → a.wait = .nothing → a.taken ≤ a.request.words.length ∧ a.request.words.length < a.taken + n) →
    ∀ a, (takeWords n s).host.active = some a → a.wait = .nothing → a.taken ∈ a.gaps := by
  intro n
  induction n with
  | zero =>
    intro s h a ha hn
    have := h a ha hn
    omega
  | succ n ih =>
    intro s h a
    rw [takeWords]
    rcases ha : s.host.active with - | b <;> simp only
    · rw [ha]; exact nofun
    · split
      · next hstop =>
        rw [ha]
        rintro ⟨⟩ hn
        exact hstop.resolve_left (fun hw => hw hn)
      · next hgo =>
        have hn : b.wait = .nothing := by simpa using (not_or.mp hgo).1
        split
        · split
          · exact nofun
          · rintro ⟨⟩ hw; cases hw
        · next w hw =>
          have hlen := (List.getElem?_eq_some_iff.mp hw).1
          have hb := h b ha hn
          split
          · refine ih _ (fun c hc _ => ?_) a
            cases hc
            simp only
            omega
          · next hf =>
            split
            · obtain ⟨c, h1, h2, h3⟩ := takeWord_active (a := b) (w := w) (s := s) (by simpa using hf)
              refine ih _ (fun d hd hdn => ?_) a
              rw [h1] at hd
              cases hd
              rcases h3 with h3 | h3
              · rw [h2, h3]; omega
              · exact absurd hdn h3
            · rintro ⟨⟩ hw; cases hw

theorem PathCore.rests {s : State} (h : PathCore s) {a : ActiveRequest}
    (ha : (takeWords (Config.burstWords + 2) s).host.active = some a) (hn : a.wait = .nothing) : a.taken ∈ a.gaps := by
  refine takeWords_rests (Config.burstWords + 2) s (fun b hb _ => ?_) a ha hn
  have hok := h.active b hb
  have := hok.short
  exact ⟨hok.taken, by omega⟩

theorem pumpHost_stands {h : Prop} {p : Option PortUse} : ∀ (n : Nat) (s : State), Path h p s → s.host.waiting.length < n →
    PathStands (pumpHost n s) := by
  intro n
  induction n with
  | zero => exact fun s _ hn => absurd hn (Nat.not_lt_zero _)
  | succ n ih =>
    intro s hs hn
    have ht := hs.takeWords (Config.burstWords + 2)
    have hw := takeWords_hostWaiting (Config.burstWords + 2) s
    unfold pumpHost
    simp only
    split
    · next r rest hact hwait =>
      have hmem : ∀ q ∈ r :: rest, q.words.length ≤ Config.burstWords := fun q hq => ht.core.waiting q (hwait ▸ hq)
      have hlen : rest.length < n := by
        rw [← hw, hwait, List.length_cons] at hn
        omega
      refine ih _ (Path.acceptRequest (ht.setHost (ht.core.elsewhere_of_none hact)
        (fun q hq => hwait ▸ List.mem_cons_of_mem _ hq) ?_ ?_) hact (hmem r List.mem_cons_self)) ?_
      · exact fun b hb => absurd (hact.symm.trans hb) nofun
      · exact fun _ _ b hb => absurd (hact.symm.trans hb) nofun
      · unfold Machine.acceptRequest
        split <;> exact hlen
    · next hact hwait => exact ⟨fun a ha => absurd (hact.symm.trans ha) nofun, fun _ _ => hwait⟩
    · next a hact => exact ⟨fun b hb hnb => .inr (hs.core.rests hb hnb), fun hnone => absurd (hact.symm.trans hnone) nofun⟩

/-- While a reset is under execution the host path may stand anywhere (R69). -/
theorem stands_of_resetting {s : State} (h : s.resetting.isSome = true) : PathStands s :=
  ⟨fun _ _ _ => .inl h, fun _ hn => by rw [hn] at h; cases h⟩

/-- After the host path went on it stands where it waits (R55). -/
theorem Path.runHost_stands {h : Prop} {p : Option PortUse} {s : State} (hs : Path h p s) :
    PathStands (Machine.runHost s) := by
  unfold Machine.runHost
  split
  · next hr => exact stands_of_resetting hr
  · exact pumpHost_stands _ s hs (Nat.lt_succ_self _)

/-! ### The engine's going on is beside the host path -/

theorem createCommit_kept (g : GroupNo) (x : Group) (img : Image) (ep : BitVec 32) (s : State) :
    HostKept s (createCommit g x img ep s) := .refl s

theorem createSafe_kept (g : GroupNo) (x : Group) (ep : BitVec 32) (s : State) : HostKept s (createSafe g x ep s) := .refl s

theorem completeImageJob_kept (j : Job) (s : State) : HostKept s (completeImageJob j s) := by
  rcases completeImageJob_cases j s with e | ⟨x, y, t, -, -, -, rfl, ⟨-, e⟩ | ⟨-, -, e⟩ | ⟨-, e⟩⟩ <;> rw [e] <;> exact .refl s

theorem completeCapture_kept (j : Job) (s : State) : HostKept s (completeCapture j s) := by
  rcases completeCapture_cases j s with e | ⟨x, -, -, ⟨-, e⟩ | ⟨-, f, b, e⟩⟩ <;> rw [e] <;> exact .refl s

theorem failCapture_kept (j : Job) (s : State) : HostKept s (failCapture j s) := by
  rcases failCapture_cases j s with e | ⟨x, -, -, ⟨-, e⟩ | ⟨-, e⟩⟩ <;> rw [e] <;> exact .refl s

theorem onInput_kept {g : GroupNo} {s : State} {k : Group → State} (hk : ∀ x, HostKept s (k x)) : HostKept s (s.onInput g k) := by
  rcases State.onInput_cases g s k with e | ⟨x, -, -, e⟩ <;> rw [e]
  · exact .refl s
  · exact hk x

theorem closeJob_kept (j : Job) (s : State) : HostKept s (closeJob j s) := by
  unfold closeJob
  simp only
  split <;> exact completeImageJob_kept j _

theorem dispatch_kept (j : Job) (rest : List Job) (s : State) : HostKept s (dispatch j rest s) := by
  unfold dispatch captureStart
  rcases j.kind with _ | _ | _
  · exact .refl s
  · exact .refl s
  · exact onInput_kept (s := s.setEngine { s.engine with queue := rest, running := some j }) fun x => .refl _

theorem endPhase_kept (j : Job) (s : State) : HostKept s (endPhase j s) := by
  unfold endPhase endRelease
  split
  · simp only
    split <;> exact .refl s
  · exact closeJob_kept j s
  · exact closeJob_kept j s
  · exact completeCapture_kept j _

theorem pumpEngine_kept (n : Nat) (s : State) : HostKept s (pumpEngine n s) :=
  pumpEngine_induct (P := fun t => HostKept s t) (fun t j rest ht _ _ => ht.trans (dispatch_kept j rest t))
    (fun t j ht _ _ => ht.trans (endPhase_kept j t)) n s (.refl s)

theorem edgeLive_kept (g : GroupNo) (x : Group) (n : SourceNo) (ep : BitVec 32) (s : State) :
    HostKept s (edgeLive g x n ep s) := by
  rcases edgeLive_cases g x n ep s with ⟨img, -, -, e⟩ | ⟨img, -, -, e⟩ | ⟨-, t, ht, h⟩
  · rw [e]; exact .refl s
  · rw [e]; exact .refl s
  · have hst : HostKept s t := by
      rcases ht with rfl | ⟨f, -, rfl⟩ <;> exact .refl _
    refine hst.trans ?_
    rcases h with ⟨-, e⟩ | ⟨-, -, e⟩ | ⟨-, -, e⟩ <;> rw [e]
    · exact .refl t
    · exact .refl t
    · rcases enterSafe_cases g { x with staleCount := x.staleCount + 1 } n ep t with ⟨-, e⟩ | ⟨-, -, e⟩ | ⟨-, -, e⟩ <;> rw [e] <;>
        exact .refl t

theorem edgeInput_kept (g : GroupNo) (x : Group) (n : SourceNo) (ep : BitVec 32) (s : State) :
    HostKept s (edgeInput g x n ep s) := by
  obtain ⟨y, t, hy, h⟩ := edgeInput_cases g x n ep s
  have hst : HostKept s t := by
    rcases hy with ⟨-, rfl⟩ | ⟨-, -, rfl⟩ | ⟨-, -, rfl⟩ <;> exact .refl _
  refine hst.trans ?_
  rcases h with ⟨-, e⟩ | ⟨-, e⟩ <;> rw [e] <;> exact .refl t

theorem edgeToGroup_kept (g : GroupNo) (n : SourceNo) (ep : BitVec 32) (s : State) : HostKept s (edgeToGroup g n ep s) := by
  rcases edgeToGroup_cases g n ep s with e | ⟨x, -, ⟨-, -, e⟩ | ⟨-, -, e⟩ | ⟨-, -, e⟩⟩ <;> rw [e]
  · exact .refl s
  · exact edgeLive_kept g x n ep s
  · rcases edgeSafe_cases g x n ep s with e | ⟨img, -, -, -, e⟩ | ⟨img, -, -, -, e⟩ <;> rw [e] <;> exact .refl s
  · exact edgeInput_kept g x n ep s

/-! ### The end of a step -/

/-- The host path at a moment where it stands. -/
structure AtRest (h : Prop) (p : Option PortUse) (s : State) : Prop where
  path : Path h p s
  stands : PathStands s

theorem AtRest.beside {h : Prop} {p : Option PortUse} {i : Instr} {s t : State} (hs : AtRest h p s) (hw : Work i s t)
    (hi : ∀ tag b, i ≠ .enableGroup tag b) (hk : HostKept s t) : AtRest h p t :=
  ⟨hs.path.beside hw hi hk, hs.stands.congr hk.1 hk.2.2⟩

theorem AtRest.aside {h : Prop} {p : Option PortUse} {s t : State} (hs : AtRest h p s) (ha : Aside s t) : AtRest h p t :=
  ⟨hs.path.aside ha, hs.stands.congr ha.1 ha.2.2.1⟩

theorem Path.runHost_atRest {h : Prop} {p : Option PortUse} {s : State} (hs : Path h p s) : AtRest h p (Machine.runHost s) :=
  ⟨hs.runHost, hs.runHost_stands⟩

/-- A request that passes its gap asks for what it waits for next. -/
theorem AtRest.joinHost {h : Prop} {p : Option PortUse} {s : State} (hs : AtRest h p s) : AtRest h p (joinHost s) := by
  rcases joinHost_cases s with e | ⟨a, w, ha, hport, -, -, hn, -, -, hnext, e⟩ <;> rw [e]
  · exact hs
  · have hok := hs.path.core.active a ha
    have hnew : ActiveOk { a.passGap with wait := w } ∧ w ≠ .nothing := by
      rcases nextWait_cases hnext with ⟨rfl, hr⟩ | ⟨hr, hd, hlt, v, l, rfl⟩
      · exact ⟨⟨hok.short, hok.taken, hok.run, hok.read, hok.write, fun _ => hr, nofun⟩, nofun⟩
      · exact ⟨⟨hok.short, hok.taken, hok.run, hok.read, hok.write, nofun, fun _ _ _ => ⟨hr, hlt, hd⟩⟩, nofun⟩
    refine ⟨hs.path.setActive (elsewhere_of_free hport) hnew.1 fun _ hg hd => hg.run a ha hd fun u hu => ?_, ⟨fun b hb hnb => ?_,
      nofun⟩⟩
    · rw [hport] at hu; cases hu
    · cases hb; exact absurd hnb hnew.2

/-- What the engine asks for is never a request of the host path. -/
theorem engineAsk_elsewhere {s : State} {u : PortUse} (h : s.engineAsk = some u) : u.purpose ≠ .run ∧ u.purpose ≠ .layered := by
  rcases engineAsk_cases h with ht | ⟨j, x, -, -, hn⟩
  · simp [ht]
  · rcases nextRequest_purpose hn with ⟨-, rfl⟩ | ⟨-, hu⟩
    · simp
    · rcases hu with hu | hu | hu | hu | hu <;> simp [hu]

theorem AtRest.grantEngine {h : Prop} {p : Option PortUse} {s : State} {u : PortUse} {n : Nat} (hs : AtRest h p s)
    (hp : s.port = none) (hu : s.engineAsk = some u) : AtRest h p (grantEngine u n s) := by
  obtain ⟨h1, h2⟩ := engineAsk_elsewhere hu
  obtain ⟨⟨hw, ha, -, -⟩, hguard⟩ := hs.path
  refine ⟨⟨⟨hw, ha, fun v hv e => ?_, fun v hv e => ?_⟩, fun hyp => ?_⟩, hs.stands.congr rfl rfl⟩
  · cases hv; exact absurd e h1
  · cases hv; exact absurd e h2
  · obtain ⟨hr, hrun, -⟩ := hguard hyp
    refine ⟨rangeLaw_congr rfl hr, fun a hact hd _ => hrun a hact hd fun v hv => ?_, fun q hq => ?_⟩
    · rw [hp] at hv; cases hv
    · cases hq; exact absurd rfl h1

/-- The address of a word of an issued run. -/
theorem runRequest_addr (a : ActiveRequest) (k : Nat) :
    a.runRequest.addr + BitVec.ofNat 24 k = a.runAddr k := by
  simp only [ActiveRequest.runRequest, ActiveRequest.runAddr, BitVec.add_assoc, BitVec.ofNat_add]

theorem hostAsk_cases {s : State} {v : PortUse} (h : s.hostAsk = some v) :
    ∃ a, s.host.active = some a ∧ ((a.wait = .run ∧ v = ⟨.run, a.runRequest⟩) ∨
      ∃ w l, a.wait = .layered w l ∧ v = ⟨.layered, { dir := .read, addr := a.nextAddr, words := [readWord l] }⟩) := by
  unfold State.hostAsk at h
  split at h
  · cases h
  · obtain ⟨a, ha, hv⟩ := Option.bind_eq_some_iff.mp h
    refine ⟨a, ha, ?_⟩
    split at hv
    · cases hv
    · next hw => cases hv; exact .inl ⟨hw, rfl⟩
    · next w l hw => cases hv; exact .inr ⟨w, l, hw, rfl⟩

/-- A run that is granted holds no guarded word (R207). -/
theorem AtRest.grantHost {h : Prop} {p : Option PortUse} {s : State} {v : PortUse} (hs : AtRest h p s) (hp : s.port = none)
    (hv : s.hostAsk = some v) : AtRest h p (grantHost v s) := by
  obtain ⟨a, hact, hcase⟩ := hostAsk_cases hv
  obtain ⟨⟨hw, ha, -, -⟩, hguard⟩ := hs.path
  have hfree : ∀ u, s.port = some u → u.purpose ≠ .run := fun u hu => by rw [hp] at hu; cases hu
  refine ⟨⟨⟨hw, ha, fun u hu e => ?_, fun u hu e => ?_⟩, fun hyp => ?_⟩, hs.stands.congr rfl rfl⟩
  · cases hu
    rcases hcase with ⟨h1, rfl⟩ | ⟨w, l, -, rfl⟩
    · exact ⟨a, hact, h1, rfl⟩
    · cases e
  · cases hu
    rcases hcase with ⟨-, rfl⟩ | ⟨w, l, h1, rfl⟩
    · cases e
    · exact ⟨a, w, l, hact, h1⟩
  · obtain ⟨hr, hrun, -⟩ := hguard hyp
    refine ⟨rangeLaw_congr rfl hr, fun b hb hd _ => hrun b hb hd hfree, fun q hq _ hd k hk => ?_⟩
    have hport : v = ⟨.run, q⟩ := Option.some.inj hq
    rcases hcase with ⟨h1, rfl⟩ | ⟨w, l, -, rfl⟩
    · cases hport
      rw [runRequest_addr]
      exact hrun a hact hd hfree k hk
    · cases hport

theorem AtRest.arbitrate {h : Prop} {p : Option PortUse} {s : State} (hs : AtRest h p s) : AtRest h p (arbitrate s) := by
  rcases arbitrate_cases s with e | ⟨u, n, hp, hu, -, -, e⟩ | ⟨v, hp, hv, e⟩ <;> rw [e]
  · exact hs
  · exact hs.grantEngine hp hu
  · exact hs.grantHost hp hv

theorem AtRest.settle {h : Prop} {p : Option PortUse} {s : State} (hs : AtRest h p s) : AtRest h p (settle s) := by
  unfold Machine.settle
  refine AtRest.arbitrate (AtRest.joinHost ?_)
  split
  · exact hs
  · next hb => exact hs.beside (i := .nop 0) (Work.pumpEngine (by simp at hb; exact hb.1) _) nofun (pumpEngine_kept _ s)

/-! ### The reset -/

theorem Path.continueReset {h : Prop} {p : Option PortUse} {s : State} (r : Resetting) (hs : Path h p s)
    (hr : s.resetting.isSome = true) : AtRest h p (continueReset r s) := by
  unfold Machine.continueReset
  split
  · have hend : Path h p (endReset r.tag s) :=
      ⟨hs.core.congr rfl rfl, fun hyp => (hs.guard hyp).congr rfl rfl (rangeLaw_congr rfl (hs.guard hyp).ranges)
        fun n => (guarded_congr rfl n).mp⟩
    exact hend.runHost_atRest.settle
  · exact AtRest.arbitrate ⟨hs, stands_of_resetting hr⟩

theorem Path.abandon {h : Prop} {p : Option PortUse} {s : State} (r : Resetting) (hs : Path h p s) (hp : s.port = none) :
    AtRest h p (abandon r s) := by
  have hwork : Work (.nop 0) s (abandonWork r s) := (Work.one (.abandon hp)).trans (Work.setResetting _ _ _)
  have hpath : Path h p (abandonWork r s) :=
    ⟨hs.core.congr rfl rfl, fun hyp => (hs.guard hyp).congr rfl rfl (hwork.rangeLaw (hs.guard hyp).ranges)
      fun n => hwork.guarded nofun⟩
  exact hpath.continueReset _ rfl

theorem AtRest.afterAnswer {h : Prop} {p : Option PortUse} {s : State} (hs : AtRest h p s)
    (hp : s.resetting ≠ none → s.port = none) : AtRest h p (afterAnswer s) := by
  rcases afterAnswer_cases s with ⟨-, e⟩ | ⟨r, hr, ⟨-, e⟩ | ⟨-, e⟩⟩ <;> rw [e]
  · exact hs.settle
  · exact hs
  · exact hs.path.abandon r (hp (by simp [hr]))

/-- The port is freed by an answer to a request that is not the host path's. -/
theorem AtRest.freePort {h : Prop} {p : Option PortUse} {s : State} {u : PortUse} (hs : AtRest h p s) (hp : s.port = some u)
    (hu : u.purpose ≠ .run) : AtRest h p (s.setPort none) := by
  obtain ⟨⟨hw, ha, -, -⟩, hguard⟩ := hs.path
  refine ⟨⟨⟨hw, ha, nofun, nofun⟩, fun hyp => ?_⟩, ⟨hs.stands.stands, hs.stands.free⟩⟩
  obtain ⟨hr, hrun, -⟩ := hguard hyp
  refine ⟨rangeLaw_congr rfl hr, fun a hact hd _ => hrun a hact hd fun v hv => ?_, nofun⟩
  rw [hp] at hv
  cases hv
  exact hu

end Sys2Proof.Machine
end

section
/-! SUPPORT. Every command brings the host path to rest in step with its requests and with the port. -/

namespace Sys2Proof.Machine

open Sys2Proof.Safety

/-! ### Commands beside the host path -/

theorem withSource_kept {tag n : Byte} {s : State} {k : SourceNo → State} (h : ∀ m, HostKept s (k m)) :
    HostKept s (withSource tag n s k) := by
  unfold withSource
  split
  · exact h _
  · exact .refl s

theorem withGroup_kept {tag n : Byte} {s : State} {k : GroupNo → State} (h : ∀ g, HostKept s (k g)) :
    HostKept s (withGroup tag n s k) := by
  unfold withGroup
  split
  · exact h _
  · exact .refl s

theorem readSource_kept (tag n : Byte) (s : State) : HostKept s (readSource tag n s) := withSource_kept fun _ => .refl s

theorem readGroup_kept (tag n : Byte) (s : State) : HostKept s (readGroup tag n s) := withGroup_kept fun _ => .refl s

theorem readEvents_kept (tag n : Byte) (s : State) : HostKept s (readEvents tag n s) := by
  unfold readEvents
  split <;> exact .refl s

theorem defineSource_aside (tag : Byte) (f : SourceFields) (s : State) : Aside s (defineSource tag f s) := by
  unfold defineSource withSource
  split
  · simp only
    split
    · exact ⟨rfl, rfl, rfl, rfl⟩
    · split
      · split <;> exact ⟨rfl, rfl, rfl, rfl⟩
      · exact ⟨rfl, rfl, rfl, rfl⟩
  · exact ⟨rfl, rfl, rfl, rfl⟩

theorem startSource_aside (tag n : Byte) (s : State) : Aside s (startSource tag n s) := by
  unfold startSource withSource
  split
  · simp only
    split <;> exact ⟨rfl, rfl, rfl, rfl⟩
  · exact ⟨rfl, rfl, rfl, rfl⟩

theorem defineGroup_kept (tag : Byte) (f : GroupFields) (s : State) : HostKept s (defineGroup tag f s) := by
  unfold defineGroup
  refine withGroup_kept fun g => ?_
  split
  · split <;> exact .refl s
  · exact .refl s

theorem deleteGroup_kept (tag n : Byte) (s : State) : HostKept s (deleteGroup tag n s) := by
  unfold deleteGroup
  refine withGroup_kept fun g => ?_
  split
  · split <;> exact .refl s
  · exact .refl s

theorem disableOutput_kept (tag : Byte) (g : GroupNo) (x : Group) (s : State) : HostKept s (disableOutput tag g x s) := by
  unfold disableOutput
  simp only
  split <;> exact .refl s

theorem disableInput_kept (tag : Byte) (g : GroupNo) (x : Group) (s : State) : HostKept s (disableInput tag g x s) := by
  unfold disableInput
  split <;> exact .refl s

theorem disableGroup_kept (tag n : Byte) (s : State) : HostKept s (disableGroup tag n s) := by
  unfold disableGroup
  refine withGroup_kept fun g => ?_
  split
  · split
    · exact .refl s
    · exact .refl s
    · exact disableOutput_kept tag g _ s
    · exact disableOutput_kept tag g _ s
    · exact disableInput_kept tag g _ s
    · exact disableInput_kept tag g _ s
  · exact .refl s

theorem resumeGroup_kept (tag n : Byte) (s : State) : HostKept s (resumeGroup tag n s) := by
  unfold resumeGroup
  refine withGroup_kept fun g => ?_
  split
  · split <;> exact .refl s
  · exact .refl s

theorem loadSafeInto_kept (tag : Byte) (g : GroupNo) (first : Byte) (loads : List SafeEntry) (s : State) :
    HostKept s (loadSafeInto tag g first loads s) := by
  unfold loadSafeInto
  split
  · exact .refl s
  · split
    · exact .refl s
    · split
      · exact .refl s
      · split
        · exact .refl s
        · split <;> exact .refl s

theorem loadSafe_kept (tag n first : Byte) (loads : List SafeEntry) (s : State) : HostKept s (loadSafe tag n first loads s) := by
  unfold loadSafe
  refine withGroup_kept fun g => ?_
  split
  · exact loadSafeInto_kept tag g first loads s
  · exact .refl s

/-! ### Edges and the beginning of a reset -/

variable {h : Prop} {p : Option PortUse} {s t : State}

/-- Acts that begin at a state with the same groups. -/
theorem AtRest.besideFrom {i : Instr} {u : State} (hs : AtRest h p s) (hu : u.groups = s.groups) (hw : Work i u t)
    (hi : ∀ tag b, i ≠ .enableGroup tag b) (hk : HostKept s t) : AtRest h p t :=
  ⟨⟨hs.path.core.congr hk.1 hk.2.1, fun hyp => (hs.path.guard hyp).congr hk.1 hk.2.1
    (hw.rangeLaw (rangeLaw_congr hu (hs.path.guard hyp).ranges)) fun n hn => (guarded_congr hu n).mp (hw.guarded hi hn)⟩,
    hs.stands.congr hk.1 hk.2.2⟩

theorem AtRest.edge (hs : AtRest h p s) (g : GroupNo) (n : SourceNo) (ep : BitVec 32) :
    AtRest h p (Machine.settle (edgeToGroup g n ep s)) :=
  (hs.beside (Work.edgeToGroup (.nop 0) g n ep s) nofun (edgeToGroup_kept g n ep s)).settle

theorem AtRest.deliverToGroup (hs : AtRest h p s) (n : SourceNo) (g : GroupNo) : AtRest h p (deliverToGroup n g s) := by
  have hset : ∀ es, AtRest h p (s.setEdges es) := fun es => hs.aside ⟨rfl, rfl, rfl, rfl⟩
  rcases deliverToGroup_cases n g s with e | ⟨ep, void, rest, -, ⟨-, e⟩ | ⟨-, e⟩⟩ <;> rw [e]
  · exact hs
  · exact hset rest
  · exact (hset rest).edge g n ep

theorem AtRest.takeAllEdges (hs : AtRest h p s) : AtRest h p (takeAllEdges s) :=
  takeAllEdges_induct (P := fun u => AtRest h p u) (fun _ _ hu => hu.aside ⟨rfl, rfl, rfl, rfl⟩)
    (fun _ g n ep hu => hu.edge g n ep) (fun u c hu => hu.aside (parentEdge_moves c u).aside) hs

theorem activeOk_closeRun {a : ActiveRequest} (ha : ActiveOk a) : ActiveOk a.closeRun := by
  rcases closeRun_cases a with e | ⟨-, hr, e⟩ <;> rw [e]
  · exact ha
  · exact ha.ask hr

/-- A request that waits is left alone by the beginning of a reset. -/
theorem closeRun_of_waiting {a : ActiveRequest} (hw : a.wait ≠ .nothing) : a.closeRun = a := by
  rcases closeRun_cases a with e | ⟨hn, -⟩
  · exact e
  · exact absurd hn hw

theorem AtRest.beginReset (tag : Byte) (hs : AtRest h p s) : Path h p (beginReset tag s) := by
  obtain ⟨⟨hw, ha, hr, hl⟩, hguard⟩ := hs.path
  have hactive : ∀ b, (Machine.beginReset tag s).host.active = some b → ∃ a, s.host.active = some a ∧ b = a.closeRun := fun b hb =>
    (Option.map_eq_some_iff.mp hb).imp fun a ⟨h1, h2⟩ => ⟨h1, h2.symm⟩
  have hback : ∀ a, s.host.active = some a → a.wait ≠ .nothing → (Machine.beginReset tag s).host.active = some a :=
    fun a hact hn => by
      show s.host.active.map ActiveRequest.closeRun = some a
      rw [hact, Option.map_some, closeRun_of_waiting hn]
  refine ⟨⟨hw, fun b hb => ?_, fun u hu e => ?_, fun u hu e => ?_⟩, fun hyp => ?_⟩
  · obtain ⟨a, hact, rfl⟩ := hactive b hb
    exact activeOk_closeRun (ha a hact)
  · obtain ⟨a, hact, h1, h2⟩ := hr u hu e
    exact ⟨a, hback a hact (by simp [h1]), h1, h2⟩
  · obtain ⟨a, w, l, hact, h1⟩ := hl u hu e
    exact ⟨a, w, l, hback a hact (by simp [h1]), h1⟩
  · obtain ⟨hrange, hrun, hissued⟩ := hguard hyp
    refine ⟨rangeLaw_congr rfl hrange, fun b hb hd hu k hk => ?_, hissued⟩
    obtain ⟨a, hact, rfl⟩ := hactive b hb
    rcases closeRun_cases a with e | ⟨-, -, e⟩
    · rw [e] at hd hk ⊢
      exact hrun a hact hd hu k hk
    · rw [e] at hd hk ⊢
      exact hrun a hact hd hu k hk

theorem AtRest.resetDevice (tag : Byte) (hs : AtRest h p s) : AtRest h p (resetDevice tag s) := by
  have hbegun := hs.takeAllEdges.beginReset tag
  unfold Machine.resetDevice
  simp only
  split
  · exact ⟨hbegun, stands_of_resetting rfl⟩
  · next hp => exact hbegun.abandon _ (by simpa using hp)

/-! ### The answers to the host path's requests -/

/-- The request inside has been answered and has no open run any more. -/
theorem AtRest.answered {b : ActiveRequest} (hs : AtRest h p s) (hb : ActiveOk b) (hr : b.run = []) :
    AtRest h p (Machine.runHost ((s.setPort none).setActive (some b))) := by
  obtain ⟨⟨hw, -, -, -⟩, hguard⟩ := hs.path
  refine Path.runHost_atRest ⟨⟨hw, fun c hc => ?_, nofun, nofun⟩, fun hyp => ⟨rangeLaw_congr rfl (hguard hyp).ranges,
    fun c hc _ _ k hk => ?_, nofun⟩⟩
  · cases hc; exact hb
  · cases hc
    rw [hr] at hk
    exact absurd hk (Nat.not_lt_zero k)

theorem activeOk_runAnswered {a : ActiveRequest} {st : PortStatus} {data : List Word} (ha : ActiveOk a)
    (hd : st = .okay → a.request.dir = .read → data.length = a.run.length) : ActiveOk (a.runAnswered st data) := by
  refine ⟨ha.short, ha.taken, Nat.zero_le _, fun hr => ?_, fun hw => ?_, nofun, nofun⟩
  · have hlen := ha.read hr
    simp only [ActiveRequest.runAnswered, List.length_append, List.length_nil, Nat.add_zero]
    rw [show a.request.dir = .read from hr]
    cases st <;> simp only
    · rw [hd rfl hr]; exact hlen
    · rw [List.length_replicate]; exact hlen
  · simp only [ActiveRequest.runAnswered]
    rw [show a.request.dir = .write from hw, ha.write hw]
    rfl

theorem activeOk_layeredAnswered {a : ActiveRequest} {st : PortStatus} {data : Word} {v : Word} {l : Lanes} (ha : ActiveOk a)
    (hw : a.wait = .layered v l) : ActiveOk (a.layeredAnswered st data) ∧ (a.layeredAnswered st data).run = [] := by
  obtain ⟨hr, hlt, hd⟩ := ha.waitsLayered v l hw
  have hidle : ActiveOk { a with wait := .nothing } := ⟨ha.short, ha.taken, ha.run, ha.read, ha.write, nofun, nofun⟩
  have hword := List.getElem?_eq_getElem hlt
  unfold ActiveRequest.layeredAnswered
  rw [hw]
  cases st
  · exact ⟨hidle.tookWord hr rfl hword false (by simp [hd]), hr⟩
  · exact ⟨hidle.tookWord hr rfl hword true (by simp [hd]), hr⟩

theorem runHost_port (s : State) : (runHost s).port = s.port := (runHost_onlyHost s).port

theorem AtRest.runResponse {st : PortStatus} {data : List Word} (hs : AtRest h p s)
    (hx : hostAnswer .run s (fun q a t =>
      if st = .okay ∧ q.dir = .read ∧ data.length ≠ q.words.length then .fault .malformedResponse
      else .next (Machine.afterAnswer (Machine.runHost (t.setActive (some (a.runAnswered st data)))))) = .next t) :
    AtRest h p t := by
  obtain ⟨q, a, hp, hact, e⟩ := hostAnswer_eq_next hx
  split at e
  · cases e
  · next hlen =>
    cases e
    obtain ⟨b, hb, -, hq⟩ := hs.path.core.portRun _ hp rfl
    obtain rfl : b = a := Option.some.inj (hb.symm.trans hact)
    obtain rfl : q = b.runRequest := hq
    refine (hs.answered (activeOk_runAnswered (hs.path.core.active b hb) fun hst hd => ?_) rfl).afterAnswer fun _ => ?_
    · by_contra hne
      exact hlen ⟨hst, hd, hne⟩
    · rw [runHost_port]; rfl

theorem AtRest.layeredResponse {st : PortStatus} {data : Word} (hs : AtRest h p s)
    (hx : hostAnswer .layered s (fun _ a t =>
      .next (Machine.afterAnswer (Machine.runHost (t.setActive (some (a.layeredAnswered st data)))))) = .next t) :
    AtRest h p t := by
  obtain ⟨q, a, hp, hact, e⟩ := hostAnswer_eq_next hx
  cases e
  obtain ⟨b, v, l, hb, hw⟩ := hs.path.core.portLayered _ hp rfl
  obtain rfl : b = a := Option.some.inj (hb.symm.trans hact)
  obtain ⟨hok, hr⟩ := activeOk_layeredAnswered (st := st) (data := data) (hs.path.core.active b hb) hw
  exact (hs.answered hok hr).afterAnswer fun _ => by rw [runHost_port]; rfl

/-! ### The enable of an output group -/

/-- The words that remain of a run that has been cut stand where they stood. -/
theorem runAddr_cutRun {a : ActiveRequest} (ha : ActiveOk a) {k : Nat} (hk : k < a.run.length) (j : Nat) :
    (a.cutRun k).runAddr j = a.runAddr j := by
  have hrun := ha.run
  unfold ActiveRequest.runAddr ActiveRequest.cutRun
  simp only [List.length_take, Nat.min_eq_left (Nat.le_of_lt hk)]
  rw [show a.taken - (a.run.length - k) - k + j = a.taken - a.run.length + j by omega]

theorem activeOk_cutRun {a : ActiveRequest} (ha : ActiveOk a) (hd : a.request.dir = .write) {k : Nat} (hk : k < a.run.length) :
    ActiveOk (a.cutRun k) := by
  have hrun := ha.run
  have htaken := ha.taken
  refine ⟨ha.short, ?_, ?_, fun hr => absurd (hd.symm.trans hr) nofun, ha.write, fun hw => ?_, fun v l hw => ?_⟩
  · simp only [ActiveRequest.cutRun]; omega
  · simp only [ActiveRequest.cutRun, List.length_take]; omega
  · simp only [ActiveRequest.cutRun] at hw ⊢
    split at hw
    · cases hw
    · next h0 =>
      rw [← List.length_pos_iff, List.length_take]
      omega
  · simp only [ActiveRequest.cutRun] at hw
    split at hw
    · cases hw
    · exact absurd (hd.symm.trans (ha.waitsLayered v l hw).2.2) nofun

/-- What an enable guards anew are the words of its group. -/
theorem guarded_of_enable {g : GroupNo} {x y : Group} (hr : y.record = x.record)
    (ht : t.groups = s.groups.set g (some y)) {n : Nat} (hn : Guarded t n) :
    Guarded s n ∨ x.record.touches n = true := by
  obtain ⟨k, z, hz, hk, hs, htouch⟩ := hn
  rw [group_of_groups_set ht] at hz
  split at hz
  · cases hz; exact .inr (hr ▸ htouch)
  · exact .inl ⟨k, z, hz, hk, hs, htouch⟩

/-- After an enable that guarded the words of the record r, the run that has not been issued is cut before them (R27, log 29). -/
theorem AtRest.withdrawRun {u : State} {r : GroupRecord} (hu : AtRest h t.port u) (hh : t.host = u.host) (hp : t.port = u.port)
    (hres : t.resetting = u.resetting) (hrange : RangeLaw u → RangeLaw t)
    (hg : ∀ n, Guarded t n → Guarded u n ∨ r.touches n = true) : AtRest h t.port (withdrawRun r t) := by
  have hcore := hu.path.core.congr hh hp
  have hstands := hu.stands.congr hh hres
  have hissued : IssuedClear t.port t := fun _ _ hne => absurd rfl hne
  have hrun : h → ∀ a, t.host.active = some a → a.request.dir = .write → (∀ v, t.port = some v → v.purpose ≠ .run) →
      ∀ j, j < a.run.length → r.touches (a.runAddr j).toNat = false → ¬ Guarded t (a.runAddr j).toNat :=
    fun hyp a ha hd hv j hj hnt hn => by
      rcases hg _ hn with hn | hn
      · exact (hu.path.guard hyp).run a (hh ▸ ha) hd (hp ▸ hv) j hj hn
      · exact absurd (hnt.symm.trans hn) nofun
  unfold Machine.withdrawRun
  split
  · next a ha =>
    have hok := hcore.active a ha
    split
    · next hw =>
      simp only [State.writeWaits, Bool.and_eq_true, decide_eq_true_eq] at hw
      obtain ⟨hd, hport⟩ := hw
      have hfree : ∀ v, t.port = some v → v.purpose ≠ .run := fun v hv => by
        rw [hv] at hport
        simpa using hport
      split
      · next k hk =>
        obtain ⟨-, hmem, hfirst⟩ := List.find?_range_eq_some.mp hk
        have hk' : k < a.run.length := List.mem_range.mp hmem
        have hother : PortElsewhere t := fun v hv => ⟨hfree v hv, fun e => by
          obtain ⟨b, w, l, hb, hl⟩ := hcore.portLayered v hv e
          obtain rfl : b = a := Option.some.inj (hb.symm.trans ha)
          exact absurd (hd.symm.trans (hok.waitsLayered w l hl).2.2) nofun⟩
        refine AtRest.settle (Path.runHost_atRest ⟨hcore.setHost hother (fun _ hr => hr) fun b hb => ?_, fun hyp =>
          ⟨rangeLaw_congr rfl (hrange (hu.path.guard hyp).ranges), fun b hb _ _ j hj => ?_, hissued⟩⟩)
        · cases hb; exact activeOk_cutRun hok hd hk'
        · cases hb
          have hjk : j < k := by
            simp only [ActiveRequest.cutRun, List.length_take] at hj
            omega
          rw [runAddr_cutRun hok hk']
          exact hrun hyp a ha hd hfree j (by omega) (by simpa using hfirst j hjk)
      · next hnone =>
        refine ⟨⟨hcore, fun hyp => ⟨hrange (hu.path.guard hyp).ranges, fun b hb hd' hv j hj => ?_, hissued⟩⟩, hstands⟩
        obtain rfl : b = a := Option.some.inj (hb.symm.trans ha)
        have := List.find?_eq_none.mp hnone j (List.mem_range.mpr hj)
        exact hrun hyp b ha hd' hv j hj (by simpa using this)
    · next hw =>
      refine ⟨⟨hcore, fun hyp => ⟨hrange (hu.path.guard hyp).ranges, fun b hb hd hv j hj => ?_, hissued⟩⟩, hstands⟩
      obtain rfl : b = a := Option.some.inj (hb.symm.trans ha)
      refine absurd ?_ hw
      simp only [State.writeWaits, Bool.and_eq_true, decide_eq_true_eq]
      refine ⟨hd, ?_⟩
      rcases hport : t.port with - | v
      · rfl
      · simpa using hv v hport
  · next hnone =>
    exact ⟨⟨hcore, fun hyp => ⟨hrange (hu.path.guard hyp).ranges, fun a ha => absurd (hnone.symm.trans ha) nofun, hissued⟩⟩,
      hstands⟩

theorem AtRest.enableGroup (tag b : Byte) (hs : AtRest h s.port s) : AtRest h s.port (enableGroup tag b s) := by
  have hsame : ∀ {u}, Aside s u → AtRest h s.port u := hs.aside
  unfold Machine.enableGroup withGroup
  split
  · next g _ =>
    simp only
    split
    · next x hx =>
      split
      · exact hsame ⟨rfl, rfl, rfl, rfl⟩
      · next he =>
        have hst := Group.state_of_not_enabled he
        split
        · next hk =>
          have hw : Work (.enableGroup tag b) s (s.setGroup g x.enableOutput) :=
            Work.one (.enableOutput g x hx hk hst ⟨tag, b, rfl⟩)
          exact AtRest.withdrawRun (t := (s.setGroup g x.enableOutput).respond .ok tag []) hs rfl rfl rfl
            (fun hr => rangeLaw_congr rfl (hw.rangeLaw hr)) fun n hn =>
              guarded_of_enable (x := x) (y := x.enableOutput) rfl rfl hn
        · next hk =>
          split
          · next hw =>
            refine hs.besideFrom (i := .nop 0) rfl ((Work.one (.enableInput g x hx hk hst hw)).trans
              (Work.reply _ _ .ok tag)) nofun ⟨rfl, rfl, rfl⟩
          · exact hsame ⟨rfl, rfl, rfl, rfl⟩
    · exact hsame ⟨rfl, rfl, rfl, rfl⟩
  · exact hsame ⟨rfl, rfl, rfl, rfl⟩

/-! ### Every command -/

theorem AtRest.of_unlessReset {r : Result} (hs : AtRest h p s) (hx : unlessReset s r = .next t)
    (hr : r = .next t → AtRest h p t) : AtRest h p t := by
  rcases unlessReset_eq_next hx with ⟨-, rfl⟩ | ⟨-, e⟩
  · exact hs
  · exact hr e

theorem AtRest.of_unlessReset_next {u : State} (hs : AtRest h p s) (hx : unlessReset s (.next u) = .next t)
    (hu : AtRest h p u) : AtRest h p t := hs.of_unlessReset hx fun e => by cases e; exact hu

theorem AtRest.of_takeFrame {r : Receive} {b : List Byte} {e : State → State} (hs : AtRest h p s)
    (hx : takeFrame r b s e = .next t) (he : ∀ u, AtRest h p u → u.port = s.port → AtRest h p (e u)) : AtRest h p t := by
  have hframe : ∀ r b, AtRest h p (s.frameEnds r b) := fun _ _ => hs.aside ⟨rfl, rfl, rfl, rfl⟩
  rcases takeFrame_eq_next hx with rfl | ⟨-, -, -, rfl⟩ | ⟨-, -, -, rfl⟩
  · exact hs
  · exact (hframe r b).aside ⟨rfl, rfl, rfl, rfl⟩
  · exact he _ (hframe r b) rfl

theorem AtRest.of_command {i : Instr} {e : State → State} (hs : AtRest h p s) (hx : takeCommand i s e = .next t)
    (hw : ∀ u, Work i u (e u)) (hi : ∀ tag b, i ≠ .enableGroup tag b) (hk : ∀ u, HostKept u (e u)) : AtRest h p t :=
  hs.of_takeFrame hx fun u hu _ => hu.beside (hw u) hi (hk u)

theorem AtRest.of_sourceCommand {i : Instr} {e : State → State} (hs : AtRest h p s) (hx : takeCommand i s e = .next t)
    (he : ∀ u, Aside u (e u)) : AtRest h p t :=
  hs.of_takeFrame hx fun u hu _ => hu.aside (he u)

/-- An answer to the running job changes the job, and the part goes on. -/
theorem AtRest.of_jobAnswer {c : Purpose} (hc : c ≠ .run) {f : Job → State → Job} (hs : AtRest h p s)
    (hx : jobAnswer c s (fun j u => .next (Machine.afterAnswer (u.setRunning (some (f j u))))) = .next t) : AtRest h p t := by
  obtain ⟨q, j, hp, -, e⟩ := jobAnswer_eq_next hx
  cases e
  exact ((hs.freePort hp hc).aside (t := (s.setPort none).setRunning (some (f j (s.setPort none)))) ⟨rfl, rfl, rfl, rfl⟩).afterAnswer
    fun _ => rfl

theorem AtRest.closingAnswer {st : PortStatus} (hs : AtRest h p s)
    (hx : jobAnswer .closing s (fun j u =>
      let k := j.noteAnswer st .sequenceWord
      .next (Machine.afterAnswer (if u.resetting.isSome then u.setRunning (some k) else closeJob k u))) = .next t) :
    AtRest h p t := by
  obtain ⟨q, j, hp, hr, e⟩ := jobAnswer_eq_next hx
  have hfree := hs.freePort hp (by simp)
  have hn := noteAnswer_fields j st .sequenceWord
  cases e
  refine AtRest.afterAnswer ?_ fun _ => ?_
  · split
    · exact hfree.aside ⟨rfl, rfl, rfl, rfl⟩
    · exact hfree.besideFrom (i := .nop 0) (u := s) rfl (Work.closeJob ⟨hr, .inr ⟨rfl, q, hp⟩⟩ ⟨hn.2.1, hn.2.2.1⟩) nofun
        (closeJob_kept _ _)
  · split
    · rfl
    · exact (closeJob_kept _ _).2.1

/-- The words of a burst go to the back bank (R114). -/
theorem placeBurst_kept (g : GroupNo) (data : List Word) (s : State) : HostKept s (placeBurst g data s) :=
  onInput_kept fun _ => .refl s

theorem abortCapture_kept (j : Job) (s : State) : HostKept s (abortCapture j s) := failCapture_kept j _

theorem Work.placeBurst {i : Instr} {j : Job} {data : List Word} {q : PortRequest} (hp : s.port = some ⟨.burst, q⟩)
    (hr : s.engine.running = some j) (hd : data.length = q.words.length) :
    Work i s ((Machine.placeBurst j.group data (s.setPort none)).setRunning
      (some { j with progress := j.progress + data.length })) := by
  unfold Machine.placeBurst
  rcases input_or_absent s j.group with ⟨x, hx, hk⟩ | ho
  · rw [State.onInput_of_input (s := s.setPort none) _ hx hk]
    exact Work.one (.burst j x data q hp hr hd hx hk)
  · rw [State.onInput_of_absent (s := s.setPort none) _ ho]
    exact Work.one (.strayBurst j _ q hp hr ho)

theorem AtRest.burstAnswer {st : PortStatus} {data : List Word} (hs : AtRest h p s)
    (hx : execCaptureBurstResponse st data s = .next t) : AtRest h p t := by
  refine hs.of_unlessReset hx fun e => ?_
  split at e
  · cases e
  · next q hq =>
    obtain ⟨q', j, hp, hr, e⟩ := jobAnswer_eq_next e
    obtain rfl : q' = q := by simpa [State.outstanding, hp] using hq
    have hfree := hs.freePort hp (by simp)
    split at e
    · split at e
      · next hd =>
        cases e
        have hkept := placeBurst_kept j.group data (s.setPort none)
        exact (hfree.besideFrom (i := .nop 0) (u := s) (t := (placeBurst j.group data (s.setPort none)).setRunning _) rfl
          (Work.placeBurst hp hr hd) nofun hkept).afterAnswer fun _ => hkept.2.1
      · cases e
    · cases e
      refine AtRest.afterAnswer ?_ fun _ => ?_
      · split
        · exact hfree
        · exact hfree.besideFrom (i := .nop 0) (u := s) rfl (Work.abortCapture ⟨hr, .inr ⟨rfl, q', hp⟩⟩) nofun
            (abortCapture_kept _ _)
      · split
        · rfl
        · exact (abortCapture_kept _ _).2.1

theorem AtRest.tornAnswer {st : PortStatus} (hs : AtRest h p s) (hx : execTornWriteResponse st s = .next t) : AtRest h p t := by
  refine hs.of_unlessReset hx fun e => ?_
  split at e
  · next q r hq hr =>
    cases e
    obtain ⟨u, hu, hpur⟩ := Option.bind_eq_some_iff.mp hq
    split at hpur
    · next ht =>
      have hfree := (hs.freePort hu (by simp [ht])).path
      refine Path.continueReset (s := { s.setPort none with resetting := some { r with torn := r.torn.tail } }) _
        ⟨hfree.core.congr rfl rfl, fun hyp => (hfree.guard hyp).congr rfl rfl (rangeLaw_congr rfl (hfree.guard hyp).ranges)
          fun n => (guarded_congr rfl n).mp⟩ rfl
    · cases hpur
  · cases e

/-- A host request has at most 16 words (R49). -/
theorem words_of_wellFormed {r : PortRequest} (hr : r.wellFormed = true) : r.words.length ≤ Config.burstWords := by
  simp only [PortRequest.wellFormed, Bool.and_eq_true, decide_eq_true_eq] at hr
  exact hr.1.2

/-- A request that arrives waits at the host port, and the path goes on (R49). -/
theorem AtRest.hostRequest {r : HostRequest} (hs : AtRest h p s) (hr : r.wellFormed = true) :
    AtRest h p (Machine.settle (Machine.runHost (s.setHost { s.host with waiting := s.host.waiting ++ [r] }))) := by
  obtain ⟨⟨hw, ha, hrun, hl⟩, hguard⟩ := hs.path
  refine AtRest.settle (Path.runHost_atRest ⟨⟨fun q hq => ?_, ha, hrun, hl⟩, fun hyp => ?_⟩)
  · rcases List.mem_append.mp hq with hq | hq
    · exact hw q hq
    · rw [List.mem_singleton.mp hq]
      exact words_of_wellFormed hr
  · obtain ⟨h1, h2, h3⟩ := hguard hyp
    exact ⟨rangeLaw_congr rfl h1, h2, h3⟩

/-- An empty host path and a free port are in step (R70). -/
theorem AtRest.of_empty (ha : s.host.active = none) (hw : s.host.waiting = []) (hp : s.port = none) (hr : h → RangeLaw s) :
    AtRest h p s := by
  have hnone : ∀ a, s.host.active ≠ some a := fun a e => by rw [ha] at e; cases e
  have hfree : ∀ u, s.port ≠ some u := fun u e => by rw [hp] at e; cases e
  exact ⟨⟨⟨fun r hr => by (rw [hw] at hr; cases hr), fun a e => absurd e (hnone a), fun u e => absurd e (hfree u),
    fun u e => absurd e (hfree u)⟩, fun hyp => ⟨hr hyp, fun a e => absurd e (hnone a), fun q e => absurd e (hfree _)⟩⟩,
    fun a e => absurd e (hnone a), fun _ _ => hw⟩

theorem exec_atRest {i : Instr} (hs : AtRest h s.port s) (hx : exec i s = .next t) : AtRest h s.port t := by
  cases i
  case powerOn =>
    cases hx
    exact AtRest.of_empty rfl rfl rfl fun _ => rangeLaw_of_reset _
  case resetAssert =>
    cases hx
    exact AtRest.of_empty rfl rfl rfl fun hyp => rangeLaw_congr rfl (hs.path.guard hyp).ranges
  case hostRequest r =>
    change execHostRequest r s = _ at hx
    unfold execHostRequest at hx
    split at hx
    · next hr => exact hs.of_unlessReset_next hx (hs.hostRequest hr)
    · cases hx
  case runResponse st data => exact hs.of_unlessReset hx hs.runResponse
  case layeredReadResponse st data => exact hs.of_unlessReset hx hs.layeredResponse
  case timerExpiry n => exact hs.of_unlessReset_next hx (hs.aside (timerExpired_moves n s).aside)
  case syncRisingEdge line =>
    exact hs.of_unlessReset_next hx ((((hs.aside (observeSync_moves line 0 _).aside).aside (observeSync_moves line 1 _).aside).aside
      (observeSync_moves line 2 _).aside).aside (observeSync_moves line 3 _).aside)
  case watchExpiry n => exact hs.of_unlessReset_next hx (hs.aside (watchExpired_moves n s).aside)
  case standInExpiry n => exact hs.of_unlessReset_next hx (hs.aside (standInExpired_moves n s).aside)
  case absorbWindowClose n => exact hs.of_unlessReset_next hx (hs.aside ⟨rfl, rfl, rfl, rfl⟩)
  case edgeDelivery n g => exact hs.of_unlessReset_next hx (hs.deliverToGroup n g)
  case parentEdgeDelivery n c => exact hs.of_unlessReset_next hx (hs.aside (deliverToChild_moves n c s).aside)
  case openingWriteResponse st => exact hs.of_unlessReset hx (hs.of_jobAnswer (by simp))
  case dataWriteResponse st => exact hs.of_unlessReset hx (hs.of_jobAnswer (by simp))
  case releaseReadResponse st data => exact hs.of_unlessReset hx (hs.of_jobAnswer (by simp))
  case releaseWriteResponse st => exact hs.of_unlessReset hx (hs.of_jobAnswer (by simp))
  case marginExpiry g =>
    refine hs.of_unlessReset_next hx ?_
    split
    · exact (hs.aside (t := marginExpired g s) ⟨rfl, rfl, rfl, rfl⟩).settle
    · exact hs
  case closingWriteResponse st => exact hs.of_unlessReset hx hs.closingAnswer
  case captureBurstResponse st data => exact hs.burstAnswer hx
  case tornWriteResponse st => exact hs.tornAnswer (st := st) hx
  case transferStart => exact hs.of_unlessReset_next hx (hs.aside ⟨rfl, rfl, rfl, rfl⟩)
  case frameTruncated b =>
    change execFrameTruncated b s = _ at hx
    unfold execFrameTruncated at hx
    split at hx
    · exact hs.of_takeFrame hx fun u hu _ => hu.aside ⟨rfl, rfl, rfl, rfl⟩
    · cases hx
  case frameRefused b =>
    change execFrameRefused b s = _ at hx
    unfold execFrameRefused at hx
    split at hx
    · exact hs.of_takeFrame hx fun u hu _ => hu.aside ⟨rfl, rfl, rfl, rfl⟩
    · cases hx
    · cases hx
  case frameDiscarded b =>
    change execFrameDiscarded b s = _ at hx
    unfold execFrameDiscarded at hx
    split at hx
    · split at hx
      · exact hs.of_takeFrame hx fun u hu _ => hu
      · cases hx
    · cases hx
  case nop tag =>
    refine hs.of_unlessReset_next hx ?_
    split
    · exact hs.aside ⟨rfl, rfl, rfl, rfl⟩
    · exact hs
  case identify tag => exact hs.of_sourceCommand hx fun u => ⟨rfl, rfl, rfl, rfl⟩
  case readDevice tag => exact hs.of_sourceCommand hx fun u => ⟨rfl, rfl, rfl, rfl⟩
  case resetDevice tag => exact hs.of_takeFrame hx fun u hu _ => hu.resetDevice tag
  case defineSource tag f => exact hs.of_sourceCommand hx (defineSource_aside tag f)
  case startSource tag n => exact hs.of_sourceCommand hx (startSource_aside tag n)
  case stopSource tag n => exact hs.of_sourceCommand hx fun u => (stopSource_moves tag n u).choose_spec.aside
  case skipEdge tag n c => exact hs.of_sourceCommand hx fun u => (skipEdge_moves tag n c u).choose_spec.aside
  case insertEdge tag n => exact hs.of_sourceCommand hx fun u => (insertEdge_moves tag n u).choose_spec.aside
  case readSource tag n => exact hs.of_command hx (fun u => Work.readSource _ tag n u) nofun (readSource_kept tag n)
  case defineGroup tag f => exact hs.of_command hx (fun u => Work.defineGroup tag f u) nofun (defineGroup_kept tag f)
  case deleteGroup tag g => exact hs.of_command hx (fun u => Work.deleteGroup tag g u) nofun (deleteGroup_kept tag g)
  case enableGroup tag g => exact hs.of_takeFrame hx fun u hu hp => hp ▸ (hp.symm ▸ hu).enableGroup tag g
  case disableGroup tag g => exact hs.of_command hx (fun u => Work.disableGroup _ tag g u) nofun (disableGroup_kept tag g)
  case resumeGroup tag g => exact hs.of_command hx (fun u => Work.resumeGroup _ tag g u) nofun (resumeGroup_kept tag g)
  case loadSafe tag g first loads =>
    change execLoadSafe tag g first loads s = _ at hx
    unfold execLoadSafe at hx
    split at hx
    · exact hs.of_command hx (fun u => Work.loadSafe tag g first loads u) nofun (loadSafe_kept tag g first loads)
    · cases hx
  case readGroup tag g => exact hs.of_command hx (fun u => Work.readGroup _ tag g u) nofun (readGroup_kept tag g)
  case setEventMask tag m => exact hs.of_sourceCommand hx fun u => ⟨rfl, rfl, rfl, rfl⟩
  case readEvents tag n => exact hs.of_command hx (fun u => Work.readEvents _ tag n u) nofun (readEvents_kept tag n)

end Sys2Proof.Machine
end

section
/-! PROOFS. The obligation about the host path (R49, R51, R55, R58, R207). -/

namespace Sys2Proof.Machine

open Sys2Proof.Safety

/-- A request that passes its gap goes on to the next (R55). -/
theorem AtRest.tick {h : Prop} {p : Option PortUse} {s : State} (hs : AtRest h p s) : AtRest h p (tick s) := by
  rcases tick_cases s with e | ⟨a, ha, -, -, hn, e⟩ <;> rw [e]
  · exact hs
  · have hok := hs.path.core.active a ha
    have hother := hs.path.core.elsewhere_of_nothing ha hn
    have hpass : ActiveOk a.passGap := ⟨hok.short, hok.taken, hok.run, hok.read, hok.write, hok.waitsRun, hok.waitsLayered⟩
    exact (hs.path.setActive hother hpass fun _ hg hd => hg.run a ha hd fun u hu => (hother u hu).1).runHost_atRest.settle

theorem step_atRest {h : Prop} {s t : State} (hs : AtRest h s.port s) (hstep : step s = .next t) : AtRest h s.port t := by
  rcases step_cases s with ⟨-, e⟩ | ⟨c, rest, -, e⟩ <;> rw [e] at hstep
  · cases hstep; exact hs.tick
  · exact exec_atRest (s := { s with pending := rest }) (hs.aside ⟨rfl, rfl, rfl, rfl⟩) hstep

/-- A word that is not guarded lies in no enabled output group's range and is no sequence word of one, in byte addresses. -/
theorem bytes_of_not_guarded {s : State} (h : RangeLaw s) {n : Nat} (hn : ¬ Guarded s n) {g : GroupNo} {x : Group}
    (hx : s.group g = some x) (hk : x.record.kind = .output) (hs : x.state ≠ .disabled) :
    ¬ InRange x.record.base.toNat x.record.length (4 * n) ∧ ∀ a ∈ x.record.seqAddr, a.toNat ≠ 4 * n := by
  obtain ⟨hok, hseq⟩ := h.1 g x hx
  have ht : ¬ x.record.touches n = true := fun ht => hn ⟨g, x, hx, hk, hs, ht⟩
  exact ⟨fun hr => ht (touches_iff.mpr (.inl ((covers_iff hok n).mpr hr))),
    fun a ha he => ht (touches_iff.mpr (.inr ((seqWord_iff hseq n).mpr ⟨a, ha, he⟩)))⟩

/-- Settles O57: every command brings the host path to rest, with no word of an enabled output group in a write run that has not been
issued, or that the step granted. -/
theorem hostPathLawIsKept : Obligations.HostPathLawIsKept := by
  intro s t hlaw hstep
  obtain ⟨hcore, hstands⟩ := (hostLaw_iff s).mp hlaw
  have hstart : AtRest (RangeLaw s ∧ RunLaw s) s.port s :=
    ⟨⟨hcore, fun ⟨hr, hrun⟩ => ⟨hr, (runLaw_iff s).mp hrun, fun _ _ hne => absurd rfl hne⟩⟩, hstands⟩
  have hend := step_atRest hstart hstep
  refine ⟨(hostLaw_iff t).mpr ⟨hend.path.core, hend.stands⟩, fun hr hrun => ?_⟩
  obtain ⟨hrange, hclear, hissued⟩ := hend.path.guard ⟨hr, hrun⟩
  exact ⟨(runLaw_iff t).mpr hclear, fun q hq hne hd k hk g x hx hkind hs =>
    bytes_of_not_guarded hrange (hissued q hq hne hd k hk) hx hkind hs⟩

end Sys2Proof.Machine
end

section
/-! PROOFS. The obligation about the laws at reset. -/

namespace Sys2Proof.Machine

open Sys2Proof.Safety

/-- Settles O58: each law has its base case, and at reset there is neither a group nor a request. -/
theorem lawsHoldAtReset : Obligations.LawsHoldAtReset := by
  have hnone : ∀ g x, State.reset.group g ≠ some x := fun g x hx =>
    absurd ((group_of_reset [] g).symm.trans hx) nofun
  have hpath := (AtRest.of_empty (h := True) (p := none) (s := State.reset) rfl rfl rfl fun _ => rangeLaw_of_reset [])
  have hengine := (engineOk_iff (s := State.reset) rfl).mp ⟨⟨List.nodup_nil, fun j hj => (by cases hj),
    fun g x hx => absurd hx (hnone g x)⟩, ⟨fun g x hx => absurd hx (hnone g x), fun j hj => (by cases hj),
    fun j hj => (by cases hj)⟩, requestOk_of_free _ _⟩
  have hsource := (sourceLaws_iff State.reset).mpr (sourceOk_reset [])
  exact ⟨poolInv_of_reset [], fun g x hx => absurd hx (hnone g x), fun g x hx => absurd hx (hnone g x),
    fun g x hx => absurd hx (hnone g x), safeStoreLaw_of_reset [], snapshotLaw_of_reset [], by decide, by decide, by decide,
    rangeLaw_of_reset [], hengine.1, hengine.2, hsource.1, hsource.2.1, hsource.2.2,
    (hostLaw_iff _).mpr ⟨hpath.path.core, hpath.stands⟩, (runLaw_iff _).mpr (hpath.path.guard trivial).run⟩

end Sys2Proof.Machine
end

section
/-! SUPPORT. Encoding and decoding of a command's fields (R174, R194, R201), and the bits of a byte on the wire (R174). -/

namespace Sys2Proof

/-! ### Fields -/

@[simp] theorem be16_bytes (x : BitVec 16) : be16 (x.extractLsb' 8 8) (x.extractLsb' 0 8) = x := by
  unfold be16
  rw [BitVec.extractLsb'_append_extractLsb'_eq_extractLsb' (by decide)]
  exact BitVec.extractLsb'_eq_self

@[simp] theorem be32_bytes (x : BitVec 32) :
    be32 (x.extractLsb' 24 8) (x.extractLsb' 16 8) (x.extractLsb' 8 8) (x.extractLsb' 0 8) = x := by
  unfold be32
  rw [BitVec.extractLsb'_append_extractLsb'_eq_extractLsb' (by decide),
    BitVec.extractLsb'_append_extractLsb'_eq_extractLsb' (by decide),
    BitVec.extractLsb'_append_extractLsb'_eq_extractLsb' (by decide)]
  exact BitVec.extractLsb'_eq_self

/-- Loads that are written read back (R194). -/
theorem decodeLoads_flatMap (loads : List SafeEntry) :
    decodeLoads (loads.flatMap (fun l => l.offset :: bytes32 l.data)) = some loads := by
  induction loads with
  | nil => rfl
  | cons l loads ih =>
    rw [List.flatMap_cons]
    show (decodeLoads (loads.flatMap (fun l => l.offset :: bytes32 l.data))).map _ = _
    rw [ih, be32_bytes]
    rfl

/-- The payload of a command's frame makes the command (R201). -/
theorem decodePayload_of_framePayload {i : Instr} {c : Command} {tag : Byte} {payload : List Byte}
    (h : framePayload i = some (c, tag, payload)) : decodePayload tag c payload = some i := by
  cases i <;> cases h
  case loadSafe g f loads =>
    rw [decodePayload, decodeLoads_flatMap]
    rfl
  case defineSource f => exact congrArg some (by simp)
  case defineGroup f => exact congrArg some (by simp)
  case setEventMask m => exact congrArg some (by simp)
  all_goals rfl

/-- A well-formed command's payload fits a frame (R175). -/
theorem payload_fits {i : Instr} {c : Command} {tag : Byte} {payload : List Byte} (hw : i.wellFormed = true)
    (h : framePayload i = some (c, tag, payload)) : payload.length ≤ Config.maxPayload := by
  cases i <;> cases h
  case loadSafe g f loads =>
    have : loads.length ≤ Config.maxLoads := by simpa [Instr.wellFormed] using hw
    simp only [List.length_cons, length_flatMap_loads]
    have h49 : Config.maxLoads = 49 := rfl
    have h250 : Config.maxPayload = 250 := rfl
    omega
  all_goals simp [bytes16, bytes32, Config.maxPayload]

/-! ### Bits -/

/-- The eight bits of a byte, the first the most significant, make the byte. -/
theorem byteOfBits_getLsbD (b : Byte) : byteOfBits (b.getLsbD 7) (b.getLsbD 6) (b.getLsbD 5) (b.getLsbD 4) (b.getLsbD 3)
    (b.getLsbD 2) (b.getLsbD 1) (b.getLsbD 0) = b := by
  unfold byteOfBits
  refine BitVec.eq_of_getLsbD_eq fun i hi => ?_
  simp only [BitVec.getLsbD_append]
  interval_cases i <;> simp

theorem wireBytes_byteBits (b : Byte) (rest : List Bool) :
    wireBytes ((List.range 8).map (fun k => b.getLsbD (7 - k)) ++ rest) = b :: wireBytes rest := by
  show byteOfBits _ _ _ _ _ _ _ _ :: wireBytes rest = _
  rw [byteOfBits_getLsbD]

/-- The bytes of the bits that have crossed, whatever incomplete byte follows (R174). -/
theorem wireBytes_flatMap (bytes : List Byte) {extra : List Bool} (h : extra.length < 8) :
    wireBytes (bytes.flatMap (fun b => (List.range 8).map (fun k => b.getLsbD (7 - k))) ++ extra) = bytes := by
  induction bytes with
  | nil =>
    rw [List.flatMap_nil, List.nil_append]
    match extra, h with
    | [], _ | [_], _ | [_, _], _ | [_, _, _], _ | [_, _, _, _], _ | [_, _, _, _, _], _ | [_, _, _, _, _, _], _
      | [_, _, _, _, _, _, _], _ => rfl
  | cons b bytes ih => rw [List.flatMap_cons, List.append_assoc, wireBytes_byteBits, ih]

/-- The frame of a command, byte by byte (R201). -/
theorem encodeFrame_eq {i : Instr} {c : Command} {tag : Byte} {payload : List Byte}
    (h : framePayload i = some (c, tag, payload)) :
    encodeFrame i = commandCode c :: tag :: BitVec.ofNat 8 payload.length :: payload ++
      [crc8 (commandCode c :: tag :: BitVec.ofNat 8 payload.length :: payload)] := by
  simp only [encodeFrame, h, sealFrame]

end Sys2Proof
end

section
/-! PROOFS. The obligation about the frame of a command (R201). -/

namespace Sys2Proof

/-- Settles O9: the frame is complete with its own check byte, and its payload decodes to the command. -/
theorem frameOfCommandReadsBack : Obligations.FrameOfCommandReadsBack := by
  intro i hw hp
  obtain ⟨⟨c, tag, payload⟩, h⟩ := Option.ne_none_iff_exists'.mp hp
  have hfit := payload_fits hw h
  have hlen : payload.length = (BitVec.ofNat 8 payload.length).toNat := by
    rw [BitVec.toNat_ofNat, Nat.mod_eq_of_lt (Nat.lt_of_le_of_lt hfit (by decide))]
  rw [encodeFrame_eq h, examineFrame_of_complete _ _ _ _ (hlen ▸ hfit) hlen]
  exact examineWhole_of_goodPayload rfl (decodePayload_of_framePayload h)

end Sys2Proof
end

section
/-! SUPPORT. When a command answers a next state (R51, R181): the guards of a command, one by one. -/

namespace Sys2Proof.Machine

open Sys2Proof.Safety

/-- The command answers a next state exactly under this condition, and is not refused. -/
def Answers (r : Result) (c : Prop) : Prop := ((∃ t, r = .next t) ↔ c) ∧ ∀ x, r ≠ .refused x

theorem Answers.next (t : State) : Answers (.next t) True := ⟨iff_of_true ⟨t, rfl⟩ trivial, fun _ h => by cases h⟩

theorem Answers.fault (f : Fault) : Answers (.fault f) False := ⟨iff_of_false (fun ⟨_, h⟩ => by cases h) id, fun _ h => by cases h⟩

theorem Answers.congr {r : Result} {c d : Prop} (h : Answers r c) (hcd : c ↔ d) : Answers r d := ⟨h.1.trans hcd, h.2⟩

theorem Answers.ite {r q : Result} {b c d : Prop} [Decidable b] (h : Answers r c) (h' : Answers q d) :
    Answers (if b then r else q) ((b ∧ c) ∨ (¬ b ∧ d)) := by
  split
  · next hb => exact h.congr (by simp [hb])
  · next hb => exact h'.congr (by simp [hb])

/-- While the RESET input is asserted a command answers, and otherwise as it does (log 13). -/
theorem Answers.unlessReset {s : State} {r : Result} {c : Prop} (h : s.resetAsserted = false → Answers r c) :
    Answers (unlessReset s r) (s.resetAsserted = true ∨ c) := by
  unfold Machine.unlessReset
  split
  · next hr => exact (Answers.next s).congr (by simp [hr])
  · next hr => exact (h (by simpa using hr)).congr (by simp [hr])

theorem Answers.unlessReset_next (s t : State) : Answers (Machine.unlessReset s (.next t)) True :=
  (Answers.unlessReset fun _ => Answers.next t).congr (by simp)

theorem Answers.takeFrame (r : Receive) (b : List Byte) (s : State) (e : State → State) : Answers (takeFrame r b s e) True := by
  obtain ⟨t, ht⟩ := takeFrame_answers r b s e
  rw [ht]
  exact .next t

theorem outstanding_eq_some {s : State} {p : Purpose} {q : PortRequest} : s.outstanding p = some q ↔ s.port = some ⟨p, q⟩ := by
  unfold State.outstanding
  constructor
  · intro h
    obtain ⟨⟨p', q'⟩, hu, h⟩ := Option.bind_eq_some_iff.mp h
    split at h
    · next hp => cases h; cases hp; exact hu
    · cases h
  · intro h
    rw [h]
    simp

/-- An answer of the engine's memory request is due when the request is outstanding and its job runs (R51). -/
theorem Answers.jobAnswer {p : Purpose} {s : State} {k : Job → State → Result} {c : PortRequest → Prop}
    (h : ∀ q j, s.port = some ⟨p, q⟩ → Answers (k j (s.setPort none)) (c q)) :
    Answers (jobAnswer p s k) (∃ q, s.port = some ⟨p, q⟩ ∧ s.engine.running ≠ none ∧ c q) := by
  unfold Machine.jobAnswer
  split
  · next q j hq hj =>
    have hp := outstanding_eq_some.mp hq
    refine (h q j hp).congr ⟨fun hc => ⟨q, hp, by simp [hj], hc⟩, fun ⟨q', hp', _, hc⟩ => ?_⟩
    obtain rfl : q = q' := (PortUse.mk.inj (Option.some.inj (hp.symm.trans hp'))).2
    exact hc
  · next hno =>
    refine (Answers.fault _).congr (iff_of_false id ?_)
    rintro ⟨q, hp, hr, -⟩
    obtain ⟨j, hj⟩ := Option.ne_none_iff_exists'.mp hr
    exact hno q j (outstanding_eq_some.mpr hp) hj

/-- An answer of the host path's memory request is due when the request is outstanding and its request inside (R51). -/
theorem Answers.hostAnswer {p : Purpose} {s : State} {k : PortRequest → ActiveRequest → State → Result}
    {c : PortRequest → Prop} (h : ∀ q a, Answers (k q a (s.setPort none)) (c q)) :
    Answers (hostAnswer p s k) (∃ q, s.port = some ⟨p, q⟩ ∧ s.host.active ≠ none ∧ c q) := by
  unfold Machine.hostAnswer
  split
  · next q a hq ha =>
    have hp := outstanding_eq_some.mp hq
    refine (h q a).congr ⟨fun hc => ⟨q, hp, by simp [ha], hc⟩, fun ⟨q', hp', _, hc⟩ => ?_⟩
    obtain rfl : q = q' := (PortUse.mk.inj (Option.some.inj (hp.symm.trans hp'))).2
    exact hc
  · next hno =>
    refine (Answers.fault _).congr (iff_of_false id ?_)
    rintro ⟨q, hp, hr, -⟩
    obtain ⟨a, ha⟩ := Option.ne_none_iff_exists'.mp hr
    exact hno q a (outstanding_eq_some.mpr hp) ha

/-- A command whose only condition is its form. -/
theorem Answers.formed {r : Result} {b : Bool} {f : Fault} (h : Answers r True) :
    Answers (if b then r else .fault f) (b = true) :=
  (h.ite (Answers.fault f)).congr (by simp)

theorem Answers.jobNext {p : Purpose} {s : State} {k : Job → State → State} :
    Answers (Machine.unlessReset s (Machine.jobAnswer p s (fun j t => .next (k j t))))
      (s.resetAsserted = true ∨ ∃ q, s.port = some ⟨p, q⟩ ∧ s.engine.running ≠ none) := by
  refine Answers.congr (Answers.unlessReset fun _ => Answers.jobAnswer (c := fun _ => True) fun _ _ _ => .next _) ?_
  simp

theorem Answers.hostNext {p : Purpose} {s : State} {k : PortRequest → ActiveRequest → State → State} :
    Answers (Machine.unlessReset s (Machine.hostAnswer p s (fun q a t => .next (k q a t))))
      (s.resetAsserted = true ∨ ∃ q, s.port = some ⟨p, q⟩ ∧ s.host.active ≠ none) := by
  refine Answers.congr (Answers.unlessReset fun _ => Answers.hostAnswer (c := fun _ => True) fun _ _ => .next _) ?_
  simp

/-- An OKAY answer to a burst has one word for each word asked (R51). -/
theorem captureBurst_answers (st : PortStatus) (data : List Word) (s : State) :
    Answers (execCaptureBurstResponse st data s) (s.resetAsserted = true ∨ ∃ q, s.port = some ⟨.burst, q⟩ ∧
      s.engine.running ≠ none ∧ (st = .okay → data.length = q.words.length)) := by
  refine Answers.unlessReset fun _ => ?_
  split
  · next hnone =>
    refine (Answers.fault _).congr (iff_of_false id ?_)
    rintro ⟨q, hp, -⟩
    rw [outstanding_eq_some.mpr hp] at hnone
    cases hnone
  · next q hq =>
    have hp := outstanding_eq_some.mp hq
    refine Answers.jobAnswer (c := fun q => st = .okay → data.length = q.words.length) fun q' j hp' => ?_
    obtain rfl : q = q' := (PortUse.mk.inj (Option.some.inj (hp.symm.trans hp'))).2
    cases st
    · exact ((Answers.next _).ite (.fault _)).congr (by simp)
    · exact (Answers.next _).congr (by simp)

theorem runResponse_answers (st : PortStatus) (data : List Word) (s : State) :
    Answers (execRunResponse st data s) (s.resetAsserted = true ∨ ∃ q, s.port = some ⟨.run, q⟩ ∧ s.host.active ≠ none ∧
      (st = .okay → q.dir = .read → data.length = q.words.length)) := by
  refine Answers.unlessReset fun _ => Answers.hostAnswer (c := fun q => st = .okay → q.dir = .read → data.length = q.words.length)
    fun q a => ((Answers.fault _).ite (.next _)).congr ?_
  simp only [and_false, false_or, and_true, not_and, ne_eq, Decidable.not_not]

theorem tornWrite_answers (st : PortStatus) (s : State) :
    Answers (execTornWriteResponse st s) (s.resetAsserted = true ∨ ∃ q, s.port = some ⟨.torn, q⟩ ∧ s.resetting ≠ none) := by
  refine Answers.unlessReset fun _ => ?_
  split
  · next q r hq hr => exact (Answers.next _).congr (iff_of_true trivial ⟨q, outstanding_eq_some.mp hq, by simp [hr]⟩)
  · next hno =>
    refine (Answers.fault _).congr (iff_of_false id ?_)
    rintro ⟨q, hp, hr⟩
    obtain ⟨r, hr⟩ := Option.ne_none_iff_exists'.mp hr
    exact hno q r (outstanding_eq_some.mpr hp) hr

theorem frameRefused_answers (b : List Byte) (s : State) : Answers (execFrameRefused b s) (refusedBytes b = true) := by
  unfold execFrameRefused refusedBytes
  cases examineFrame b
  · exact (Answers.fault _).congr (by simp)
  · exact (Answers.takeFrame _ _ _ _).congr (by simp)
  · exact (Answers.fault _).congr (by simp)

theorem frameDiscarded_answers (b : List Byte) (s : State) :
    Answers (execFrameDiscarded b s) (discardableBytes b = true ∧ (s.resetAsserted = true ∨ s.resetting ≠ none)) :=
  (((Answers.takeFrame (receiveAfter b) b s id).ite (.fault _)).ite (.fault _)).congr (by
    simp [Option.isSome_iff_ne_none, or_comm])

theorem exec_answers (i : Instr) (s : State) :
    Answers (exec i s) (i.wellFormed = true ∧ (s.resetAsserted = true ∨ AnswerDue i s)) := by
  have htrue : ∀ {r : Result}, Answers r True → Answers r (true = true ∧ (s.resetAsserted = true ∨ True)) := fun h =>
    h.congr (by simp)
  have hdue : ∀ {r : Result} {c : Prop}, Answers r c → Answers r (true = true ∧ c) := fun h => h.congr (by simp)
  have hform : ∀ {r : Result} {b : Bool}, Answers r (b = true) → Answers r (b = true ∧ (s.resetAsserted = true ∨ True)) :=
    fun h => h.congr (by simp)
  cases i
  case powerOn | resetAssert => exact htrue (.next _)
  case hostRequest r => exact hform (Answers.formed (.unlessReset_next _ _))
  case runResponse st data => exact hdue (runResponse_answers st data s)
  case layeredReadResponse st data => exact hdue Answers.hostNext
  case openingWriteResponse | dataWriteResponse | releaseReadResponse | releaseWriteResponse | closingWriteResponse =>
    exact hdue Answers.jobNext
  case captureBurstResponse st data => exact hdue (captureBurst_answers st data s)
  case tornWriteResponse st => exact hdue (tornWrite_answers st s)
  case frameTruncated b => exact hform (Answers.formed (.takeFrame _ _ _ _))
  case frameRefused b => exact hform (frameRefused_answers b s)
  case frameDiscarded b => exact frameDiscarded_answers b s
  case loadSafe tag g f loads =>
    exact hform (((Answers.takeFrame _ _ _ _).ite (.fault _)).congr (by simp [Instr.wellFormed]))
  case timerExpiry | syncRisingEdge | watchExpiry | standInExpiry | absorbWindowClose | edgeDelivery | parentEdgeDelivery
      | marginExpiry | transferStart | nop => exact htrue (.unlessReset_next _ _)
  all_goals exact htrue (.takeFrame _ _ _ _)

end Sys2Proof.Machine
end

section
/-! PROOFS. The obligations about the step, the stops of a command, the RESET input, power-on, transfers and discarded frames. -/

namespace Sys2Proof.Machine

open Sys2Proof.Safety

/-- Settles O1: the step is defined by the front of the queue, and an empty queue ticks. -/
theorem stepRunsFrontCommand : Obligations.StepRunsFrontCommand := by
  refine ⟨fun c rest s => rfl, fun s h => ?_, fun s h => ?_⟩
  · rcases step_cases s with ⟨-, e⟩ | ⟨c, rest, hp, -⟩
    · exact e
    · exact absurd (h.symm.trans hp) nofun
  · rcases tick_cases s with e | ⟨a, ha, h0, h1, hn, -⟩
    · exact e
    · rcases h with h | h | h
      · exact absurd (h.symm.trans h0) nofun
      · exact absurd h1 h
      · exact absurd hn (h a ha)

/-- Settles O2: guard by guard, each command answers exactly when its form and its request allow it. -/
theorem commandsStopOnlyOnWhatCannotHappen : Obligations.CommandsStopOnlyOnWhatCannotHappen := exec_answers

/-- A guarded command does nothing while the RESET input is asserted (log 13). -/
theorem unlessReset_of_true {s : State} (h : s.resetAsserted = true) (r : Result) : unlessReset s r = .next s := by
  simp [unlessReset, h]

/-- Settles O3: RESET_ASSERT is the stated update, and every other command but POWER_ON is guarded by the input. -/
theorem resetInputHoldsThePart : Obligations.ResetInputHoldsThePart := by
  refine ⟨fun s => rfl, fun i s h hw hpower hassert => ?_⟩
  cases i
  case powerOn => exact absurd rfl hpower
  case resetAssert => exact absurd rfl hassert
  case hostRequest r => exact (if_pos hw).trans (unlessReset_of_true h _)
  case frameTruncated b => exact (if_pos hw).trans (unlessReset_of_true h _)
  case frameRefused b =>
    change refusedBytes b = true at hw
    change execFrameRefused b s = _
    unfold refusedBytes at hw
    unfold execFrameRefused
    cases hv : examineFrame b <;> simp only [hv] at hw ⊢
    · cases hw
    · exact unlessReset_of_true h _
    · cases hw
  case frameDiscarded b =>
    refine (if_pos hw).trans ((if_pos ?_).trans (unlessReset_of_true h _))
    simp [h]
  case loadSafe tag g f loads => exact (if_pos (by simpa [Instr.wellFormed] using hw)).trans (unlessReset_of_true h _)
  all_goals exact unlessReset_of_true h _

/-- The report of an idle device: 4096, 1024 and 2048 free, and no record and no loss (R186). -/
theorem freshReport : numBytes16 4096 ++ numBytes16 1024 ++ numBytes16 2048 ++ [BitVec.ofNat 8 0] ++ bytes16 0 ++ bytes16 0 =
    [0x10, 0, 0x04, 0, 0x08, 0, 0, 0, 0, 0, 0] := by decide

/-- Settles O4: the state after power-on, field by field. -/
theorem powerOnSetsEveryBlock : Obligations.PowerOnSetsEveryBlock := by
  intro s
  refine ⟨{ State.reset with pending := s.pending }, rfl, group_of_reset s.pending, rfl, rfl, rfl, fun n => ?_, rfl, rfl, rfl, rfl,
    rfl, rfl, rfl, rfl, rfl, rfl, rfl, rfl, rfl, fun tag => ⟨_, _, rfl, rfl, rfl, ?_⟩⟩
  · simp [State.source, State.reset, Source.undefined]
  · exact congrArg (fun p => ({ status := .ok, tag := tag, payload := p } : Response)) freshReport

/-- Settles O5: the transmit copy is the buffer, MDO follows it, and bits and bytes correspond in place. -/
theorem transferStartAndNop : Obligations.TransferStartAndNop := by
  refine ⟨fun s h => ⟨_, unlessReset_of_false h _, rfl, fun i => ?_⟩, fun s msel i h => ?_, fun s msel i k b hk hb => ?_,
    fun bytes extra h => wireBytes_flatMap bytes h, fun tag s h hrec => ?_⟩
  · have hdriven : ({ s with link := { s.link with receive := .receiving, received := [], transmit := s.link.response } } :
        State).mdoDriven true = true := by simp [State.mdoDriven, h]
    exact if_pos hdriven
  · refine if_neg ?_
    simp only [State.mdoDriven, Bool.and_eq_true, Bool.not_eq_true', decide_eq_true_eq, not_and]
    rintro ⟨hm, hr⟩ hc
    rcases h with h | h | h
    · exact absurd (h.symm.trans hm) nofun
    · exact absurd (h.symm.trans hr) nofun
    · exact hc h
  · rw [State.mdoBit, show (8 * i + k) / 8 = i by omega, show (8 * i + k) % 8 = k by omega, hb, Option.map_some,
      BitVec.getMsbD_eq_getLsbD]
    simp [hk]
  · refine (unlessReset_of_false h _).trans ?_
    rw [if_pos hrec]
    rfl

/-- During RESET_DEVICE a frame in an open select period is discarded and counted (R181). -/
theorem takeFrame_of_resetting {s : State} (h0 : s.resetAsserted = false) (hr : s.resetting ≠ none)
    (hl : s.link.receive = .receiving) (r : Receive) (b : List Byte) (e : State → State) :
    takeFrame r b s e = .next { s with link := { s.link with
      receive := r, received := b,
      discarded := if s.link.discarded = 0xFFFF then 0xFFFF else s.link.discarded + 1 } } := by
  rw [takeFrame, unlessReset_of_false h0, if_pos hl, if_pos (by simpa [Option.isSome_iff_ne_none] using hr)]
  show Host.Outcome.next (State.setLink { s.link with receive := r, received := b, discarded := satSucc16 s.link.discarded } s) = _
  rw [satSucc16_eq]
  rfl

/-- Settles O8: every form of a frame is taken by the same rule, which discards it while RESET_DEVICE executes. -/
theorem framesAreDiscardedDuringReset : Obligations.FramesAreDiscardedDuringReset := by
  intro s h0 hr hl
  have htake := takeFrame_of_resetting h0 hr hl
  have hdue : (s.resetting.isSome || s.resetAsserted) = true := by simp [Option.isSome_iff_ne_none, hr]
  have hdiscard : ∀ b, discardableBytes b = true → execFrameDiscarded b s = takeFrame (receiveAfter b) b s id := fun b hb => by
    rw [execFrameDiscarded, if_pos hb, if_pos hdue]
  refine ⟨fun i hw hp hn => ?_, fun b hb hv => ⟨?_, ?_⟩, fun b st tag hv => ⟨?_, ?_⟩, fun b i hv hn => ?_⟩
  · cases i
    case nop tag => exact absurd rfl (hn tag)
    case loadSafe tag g f loads => exact (if_pos (by simpa [Instr.wellFormed] using hw)).trans (htake _ _ _)
    case identify | readDevice | resetDevice | defineSource | startSource | stopSource | skipEdge | insertEdge | readSource
        | defineGroup | deleteGroup | enableGroup | disableGroup | resumeGroup | readGroup | setEventMask | readEvents =>
      exact htake _ _ _
    all_goals exact absurd rfl hp
  · exact (if_pos (by simp [truncatedBytes, hb, hv])).trans (htake _ _ _)
  · refine (hdiscard b (by simp [discardableBytes, hb, hv])).trans ?_
    rw [receiveAfter, if_pos hv]
    exact htake _ _ _
  · show execFrameRefused b s = _
    rw [execFrameRefused, hv]
    exact htake _ _ _
  · have hb : b ≠ [] := by rintro rfl; cases hv
    refine (hdiscard b (by simp [discardableBytes, hb, hv])).trans ?_
    rw [receiveAfter, if_neg (by simp [hv])]
    exact htake _ _ _
  · have hb : b ≠ [] := by rintro rfl; cases hv
    have hd : discardableBytes b = true := by
      cases i
      case nop tag => exact absurd rfl (hn tag)
      all_goals simp [discardableBytes, hb, hv]
    refine (hdiscard b hd).trans ?_
    rw [receiveAfter, if_neg (by simp [hv])]
    exact htake _ _ _

end Sys2Proof.Machine
end

section
/-! SUPPORT. The checks of DEFINE_SOURCE, as the fields satisfy them (R72). -/

namespace Sys2Proof.Machine

open Sys2Proof.Safety

theorem sourceOfByte_eq_some {b : Byte} {m : SourceNo} : sourceOfByte b = some m ↔ m.val = b.toNat := by
  unfold sourceOfByte
  split
  · next h => rw [Option.some.injEq, Fin.ext_iff, eq_comm]
  · next h => exact iff_of_false nofun fun e => h (e ▸ m.isLt)

theorem sourceOfByte_of_le {b : Byte} (h : b.toNat ≤ 3) : sourceOfByte b = some (Fin.ofNat 4 b.toNat) :=
  sourceOfByte_eq_some.mpr (Nat.mod_eq_of_lt (Nat.lt_succ_of_le h))

theorem sourceOfByte_of_beyond {b : Byte} (h : ¬ b.toNat ≤ 3) : sourceOfByte b = none := by
  rw [sourceOfByte, dif_neg (by omega)]

/-- A byte up to 3 is one of four. -/
theorem byte_le_three {b : Byte} : b.toNat ≤ 3 ↔ b = 0 ∨ b = 1 ∨ b = 2 ∨ b = 3 := by
  constructor
  · intro h; bv_omega
  · rintro (rfl | rfl | rfl | rfl) <;> decide

theorem unitOfByte_of_le {b : Byte} (h : b.toNat ≤ 3) :
    unitOfByte b = some (if b = 0 then .us1 else if b = 1 then .us10 else if b = 2 then .us100 else .ms1) := by
  rcases byte_le_three.mp h with rfl | rfl | rfl | rfl <;> rfl

theorem unitOfByte_of_beyond {b : Byte} (h : ¬ b.toNat ≤ 3) : unitOfByte b = none := by
  have hne : ¬ b = 0 ∧ ¬ b = 1 ∧ ¬ b = 2 ∧ ¬ b = 3 := by
    simpa only [byte_le_three, not_or] using h
  obtain ⟨h0, h1, h2, h3⟩ := hne
  rw [unitOfByte, if_neg h0, if_neg h1, if_neg h2, if_neg h3]

theorem ne_zero_iff_one_le {w : Nat} {x : BitVec w} : x ≠ 0 ↔ 1 ≤ x.toNat := by
  have h0 : (0 : BitVec w).toNat = 0 := by simp
  rw [ne_eq, ← BitVec.toNat_inj, h0]
  omega

/-- The checks 3 to 6 of R72, by kind. -/
def KindFieldsOk (f : SourceFields) (s : State) : Prop :=
  f.kind.toNat ≤ 2 ∧
  (f.kind = 0 → 1 ≤ f.period.toNat ∧ f.margin.toNat < f.period.toNat) ∧
  (f.kind = 1 → 1 ≤ f.period.toNat ∧ 1 ≤ f.guard.toNat ∧ f.syncLine.toNat ≤ 3) ∧
  (f.kind = 2 → f.parent.toNat < f.source.toNat ∧
    (∃ p : SourceNo, p.val = f.parent.toNat ∧ (s.source p).record ≠ none) ∧ 1 ≤ f.divisor.toNat ∧ f.divisor.toNat ≤ 256)

theorem checkSourceKind_of_timer {n : SourceNo} {f : SourceFields} {s : State} (hk : f.kind = 0) :
    checkSourceKind n f s =
      if 1 ≤ f.period.toNat ∧ f.margin.toNat < f.period.toNat then some (storedSource f).kind else none := by
  rw [checkSourceKind, if_pos hk]
  simp only [ne_zero_iff_one_le, BitVec.lt_def, storedSource, hk, if_true]

theorem checkSourceKind_of_external {n : SourceNo} {f : SourceFields} {s : State} (hk : f.kind = 1) :
    checkSourceKind n f s =
      if 1 ≤ f.period.toNat ∧ 1 ≤ f.guard.toNat ∧ f.syncLine.toNat ≤ 3 then some (storedSource f).kind else none := by
  have h0 : ¬ f.kind = 0 := by rw [hk]; decide
  rw [checkSourceKind, if_neg h0, if_pos hk]
  simp only [ne_zero_iff_one_le, storedSource, if_neg h0, if_pos hk]
  by_cases hl : f.syncLine.toNat ≤ 3
  · simp only [sourceOfByte_of_le hl, Option.map_some, hl, and_true]
  · simp only [sourceOfByte_of_beyond hl, Option.map_none, ite_self, hl, and_false, if_false]

theorem checkSourceKind_of_divided {n : SourceNo} {f : SourceFields} {s : State} (hn : n.val = f.source.toNat) (hk : f.kind = 2) :
    (KindFieldsOk f s → checkSourceKind n f s = some (storedSource f).kind) ∧
      (¬ KindFieldsOk f s → checkSourceKind n f s = none) := by
  have h0 : ¬ f.kind = 0 := by rw [hk]; decide
  have h1 : ¬ f.kind = 1 := by rw [hk]; decide
  have hok : KindFieldsOk f s ↔ f.parent.toNat < f.source.toNat ∧
      (∃ p : SourceNo, p.val = f.parent.toNat ∧ (s.source p).record ≠ none) ∧ 1 ≤ f.divisor.toNat ∧ f.divisor.toNat ≤ 256 := by
    simp [KindFieldsOk, hk]
  rw [checkSourceKind, if_neg h0, if_neg h1, if_pos hk, hok]
  simp only [storedSource, if_neg h0, if_neg h1]
  rcases hp : sourceOfByte f.parent with - | p <;> simp only
  · refine ⟨fun ⟨hlt, _⟩ => ?_, fun _ => trivial⟩
    rw [sourceOfByte_of_le (by omega)] at hp
    cases hp
  · have hpv := sourceOfByte_eq_some.mp hp
    have hp4 : Fin.ofNat 4 f.parent.toNat = p := Fin.ext (by rw [← hpv]; exact Nat.mod_eq_of_lt p.isLt)
    have hcond : (p < n ∧ (s.source p).record.isSome = true ∧ 1 ≤ f.divisor.toNat ∧ f.divisor.toNat ≤ 256) ↔
        (f.parent.toNat < f.source.toNat ∧ (∃ p : SourceNo, p.val = f.parent.toNat ∧ (s.source p).record ≠ none) ∧
          1 ≤ f.divisor.toNat ∧ f.divisor.toNat ≤ 256) := by
      rw [Fin.lt_def, hn, hpv, Option.isSome_iff_ne_none]
      refine and_congr_right fun _ => and_congr_left fun _ => ⟨fun h => ⟨p, hpv, h⟩, ?_⟩
      rintro ⟨q, hq, h⟩
      obtain rfl : q = p := Fin.ext (hq.trans hpv.symm)
      exact h
    rw [hp4, ← hcond]
    exact ⟨fun h => if_pos h, fun h => if_neg h⟩

theorem checkSourceKind_spec {n : SourceNo} {f : SourceFields} {s : State} (hn : n.val = f.source.toNat) :
    (KindFieldsOk f s → checkSourceKind n f s = some (storedSource f).kind) ∧
      (¬ KindFieldsOk f s → checkSourceKind n f s = none) := by
  by_cases h0 : f.kind = 0
  · rw [checkSourceKind_of_timer h0]
    have hok : KindFieldsOk f s ↔ 1 ≤ f.period.toNat ∧ f.margin.toNat < f.period.toNat := by simp [KindFieldsOk, h0]
    rw [hok]
    exact ⟨fun h => if_pos h, fun h => if_neg h⟩
  by_cases h1 : f.kind = 1
  · rw [checkSourceKind_of_external h1]
    have hok : KindFieldsOk f s ↔ 1 ≤ f.period.toNat ∧ 1 ≤ f.guard.toNat ∧ f.syncLine.toNat ≤ 3 := by simp [KindFieldsOk, h1]
    rw [hok]
    exact ⟨fun h => if_pos h, fun h => if_neg h⟩
  by_cases h2 : f.kind = 2
  · exact checkSourceKind_of_divided hn h2
  · refine ⟨fun ⟨h, _⟩ => ?_, fun _ => by rw [checkSourceKind, if_neg h0, if_neg h1, if_neg h2]⟩
    rcases byte_le_three.mp (Nat.le_succ_of_le h) with e | e | e | e
    · exact absurd e h0
    · exact absurd e h1
    · exact absurd e h2
    · rw [e] at h; exact absurd h (by decide)

/-- The checks of R72 pass exactly for good fields, which make the stored record. -/
theorem checkSource_spec {n : SourceNo} {f : SourceFields} {s : State} (hn : n.val = f.source.toNat) :
    (SourceFieldsOk f s → checkSource n f s = some (storedSource f)) ∧ (¬ SourceFieldsOk f s → checkSource n f s = none) := by
  have hlt : f.source.toNat ≤ 3 := hn ▸ Nat.le_of_lt_succ n.isLt
  have hok : SourceFieldsOk f s ↔ f.unit.toNat ≤ 3 ∧ KindFieldsOk f s := by
    simp only [SourceFieldsOk, KindFieldsOk, hlt, true_and]
    tauto
  rw [hok]
  obtain ⟨hgood, hbad⟩ := checkSourceKind_spec (s := s) hn
  refine ⟨fun ⟨hu, hk⟩ => ?_, fun h => ?_⟩
  · rw [checkSource, unitOfByte_of_le hu, hgood hk]
    rfl
  · unfold checkSource
    by_cases hu : f.unit.toNat ≤ 3
    · rw [hbad fun hk => h ⟨hu, hk⟩]
      split
      · next h => cases h
      · rfl
    · rw [unitOfByte_of_beyond hu]

/-- The countdown that a stored record starts with (R74). -/
theorem storedSource_startCountdown (f : SourceFields) :
    (storedSource f).startCountdown = if f.kind = 0 then some ((storedSource f).duration f.period) else none := by
  unfold SourceRecord.startCountdown storedSource
  by_cases h0 : f.kind = 0
  · simp only [if_pos h0]
  · by_cases h1 : f.kind = 1
    · simp only [if_neg h0, if_pos h1]
    · simp only [if_neg h0, if_neg h1]

end Sys2Proof.Machine
end

section
/-! PROOFS. The obligations about the source commands (R72 to R76, R91, R93). -/

namespace Sys2Proof.Machine

open Sys2Proof.Safety

/-- A command that executes answers what its effect comes to. -/
theorem takeCommand_of_effect {i : Instr} {s t u : State} {effect : State → State} {st : Status} {tag : Byte}
    {payload : List Byte} (hs : LinkReady s) (he : effect (s.frameEnds .complete (encodeFrame i)) = u)
    (hu : u = (t.frameEnds .complete (encodeFrame i)).respond st tag payload) :
    takeCommand i s effect = .next (answered i st tag payload t) :=
  takeCommand_eq_answered hs (he.trans hu)

theorem defineSource_of_bad {tag : Byte} {f : SourceFields} {s : State} {n : SourceNo} (hn : n.val = f.source.toNat)
    (h : checkSource n f s = none) : defineSource tag f s = s.respond .badArgument tag [] := by
  rw [defineSource, withSource_of_val tag s _ hn, h]

theorem defineSource_of_good {tag : Byte} {f : SourceFields} {s : State} {n : SourceNo} {r : SourceRecord}
    (hn : n.val = f.source.toNat) (h : checkSource n f s = some r) : defineSource tag f s =
      if (s.source n).running then
        if (s.source n).record.elim true (fun old => old.kind.same r.kind) then
          ((s.setSource n ((s.source n).redefine r)).voidChild n).respond .ok tag []
        else s.respond .wrongState tag []
      else ((s.setSource n ((s.source n).defineStopped r)).voidChild n).respond .ok tag [] := by
  rw [defineSource, withSource_of_val tag s _ hn, h]

/-! ### START_SOURCE, STOP_SOURCE, SKIP_EDGE and INSERT_EDGE -/

theorem startSource_of_stopped {tag b : Byte} {s : State} {n : SourceNo} {r : SourceRecord} (hn : n.val = b.toNat)
    (hr : (s.source n).record = some r) (hrun : (s.source n).running = false) :
    startSource tag b s = (s.setSource n ((s.source n).start r)).respond .ok tag [] := by
  rw [startSource, withSource_of_val tag s _ hn]
  simp only [hr, hrun]

theorem startSource_of_not_stopped {tag b : Byte} {s : State} {n : SourceNo} (hn : n.val = b.toNat)
    (h : (s.source n).record = none ∨ (s.source n).running = true) :
    startSource tag b s = s.respond .wrongState tag [] := by
  rw [startSource, withSource_of_val tag s _ hn]
  rcases h with h | h
  · simp only [h]
  · cases hr : (s.source n).record <;> simp only [hr, h]

theorem stopSource_of_running {tag b : Byte} {s : State} {n : SourceNo} (hn : n.val = b.toNat)
    (hrun : (s.source n).running = true) :
    stopSource tag b s = ((s.setSource n (s.source n).stop).voidChild n).respond .ok tag [] := by
  rw [stopSource, withSource_of_val tag s _ hn, if_pos hrun]

theorem stopSource_of_stopped {tag b : Byte} {s : State} {n : SourceNo} (hn : n.val = b.toNat)
    (hrun : (s.source n).running = false) : stopSource tag b s = s.respond .wrongState tag [] := by
  rw [stopSource, withSource_of_val tag s _ hn, if_neg (by simp [hrun])]

/-- A cancel flag up to 1 is a flag (R189). -/
theorem flag_iff_le_one {b : Byte} : (b = 0 ∨ b = 1) ↔ b.toNat ≤ 1 := by
  constructor
  · rintro (rfl | rfl) <;> decide
  · intro h; bv_omega

theorem skipEdge_of_badFlag {tag b cancel : Byte} {s : State} {n : SourceNo} (hn : n.val = b.toNat) (hc : 1 < cancel.toNat) :
    skipEdge tag b cancel s = s.respond .badArgument tag [] := by
  rw [skipEdge, withSource_of_val tag s _ hn, if_neg (by rw [flag_iff_le_one]; omega)]

theorem skipEdge_of_stopped {tag b cancel : Byte} {s : State} {n : SourceNo} (hn : n.val = b.toNat) (hc : cancel.toNat ≤ 1)
    (hrun : (s.source n).running = false) : skipEdge tag b cancel s = s.respond .wrongState tag [] := by
  rw [skipEdge, withSource_of_val tag s _ hn, if_pos (flag_iff_le_one.mpr hc), if_neg (by simp [hrun])]

theorem skipEdge_of_running {tag b cancel : Byte} {s : State} {n : SourceNo} (hn : n.val = b.toNat) (hc : cancel.toNat ≤ 1)
    (hrun : (s.source n).running = true) : skipEdge tag b cancel s =
      (s.setSource n { s.source n with skip := decide (cancel = 0) }).respond .ok tag [] := by
  rw [skipEdge, withSource_of_val tag s _ hn, if_pos (flag_iff_le_one.mpr hc), if_pos hrun]

theorem insertEdge_of_running {tag b : Byte} {s : State} {n : SourceNo} {r : SourceRecord} (hn : n.val = b.toNat)
    (hr : (s.source n).record = some r) (hrun : (s.source n).running = true) :
    insertEdge tag b s = (emitEdge n (s.setSource n ((s.source n).inserted r))).respond .ok tag [] := by
  rw [insertEdge, withSource_of_val tag s _ hn]
  simp only [hr, hrun]

theorem insertEdge_of_stopped {tag b : Byte} {s : State} {n : SourceNo} (hn : n.val = b.toNat)
    (hrun : (s.source n).running = false) : insertEdge tag b s = s.respond .wrongState tag [] := by
  rw [insertEdge, withSource_of_val tag s _ hn]
  cases hr : (s.source n).record <;> simp only [hr, hrun]

/-- What an inserted edge does to the timers, in one table (R93). -/
theorem Source.inserted_eq (x : Source) (r : SourceRecord) : x.inserted r =
    (match r.kind, x.lock with
      | .timer p, _ => { x with countdown := some (r.duration p) }
      | .external p g _ _, .locked => { x with watch := some (r.duration p + r.duration g) }
      | .external p _ _ _, .holdover => { x with standIn := some (r.duration p) }
      | .external _ _ _ _, .await => x
      | .external _ _ _ _, .lost => x
      | .divided _ _, _ => { x with phase := 0 }) := by
  unfold Source.inserted
  cases r.kind <;> cases x.lock <;> rfl

/-- Settles O14: each command by the source's number, its flag and the source's state. -/
theorem sourceCommands : Obligations.SourceCommands := by
  intro tag b cancel s hs
  refine ⟨fun hb => ?beyond, fun n hn => ⟨fun r hr hrun => ?start, fun h => ?noStart, fun hrun => ?stop, fun hrun => ?stopped,
    fun hc => ?badFlag, fun hc hrun => ?noSkip, fun hc hrun => ?skip, fun r hr hrun => ?insert⟩⟩
  case beyond =>
    exact ⟨takeCommand_eq_answered hs (withSource_of_beyond tag _ _ hb), takeCommand_eq_answered hs (withSource_of_beyond tag _ _ hb),
      takeCommand_eq_answered hs (withSource_of_beyond tag _ _ hb), takeCommand_eq_answered hs (withSource_of_beyond tag _ _ hb)⟩
  case start => exact takeCommand_of_effect hs (startSource_of_stopped hn hr hrun) rfl
  case noStart => exact takeCommand_eq_answered hs (startSource_of_not_stopped hn h)
  case stop => exact takeCommand_of_effect hs (stopSource_of_running hn hrun) rfl
  case stopped =>
    exact ⟨takeCommand_eq_answered hs (stopSource_of_stopped hn hrun), takeCommand_eq_answered hs (insertEdge_of_stopped hn hrun)⟩
  case badFlag => exact takeCommand_eq_answered hs (skipEdge_of_badFlag hn hc)
  case noSkip => exact takeCommand_eq_answered hs (skipEdge_of_stopped hn hc hrun)
  case skip => exact takeCommand_eq_answered hs (skipEdge_of_running hn hc hrun)
  case insert =>
    refine takeCommand_of_effect hs (insertEdge_of_running hn hr hrun) ?_
    rw [State.source_frameEnds, Source.inserted_eq]
    rfl

end Sys2Proof.Machine
end

section
/-! PROOFS. The obligation about DEFINE_SOURCE, outside the namespace of the effect it is named like. -/

namespace Sys2Proof

open Sys2Proof.Machine Sys2Proof.Safety

/-- Settles O13: the checks decide as the fields satisfy them, and each accepted case is one update of the source. -/
theorem defineSource : Obligations.DefineSource := by
  intro tag f s hs
  refine ⟨fun hbad => ?bad, fun n hn hok => ⟨fun hstop => ?stopped, fun old hold hrun => ⟨fun hkind => ?otherKind, fun hkind => ?sameKind⟩⟩⟩
  case bad =>
    by_cases hb : 3 < f.source.toNat
    · exact takeCommand_eq_answered hs (withSource_of_beyond tag _ _ hb)
    · have hn : (⟨f.source.toNat, by omega⟩ : SourceNo).val = f.source.toNat := rfl
      exact takeCommand_eq_answered hs (defineSource_of_bad hn ((checkSource_spec hn).2 hbad))
  all_goals
    have hgood : ∀ r b, checkSource n f (s.frameEnds r b) = some (storedSource f) := fun _ _ => (checkSource_spec hn).1 hok
    refine takeCommand_of_effect hs (defineSource_of_good hn (hgood _ _)) ?_
  case stopped =>
    rw [State.source_frameEnds, if_neg (by simp [hstop])]
    rfl
  all_goals
    have hold : (s.source n).record = some old := hold
    rw [State.source_frameEnds, if_pos hrun, hold, Option.elim_some]
  case otherKind => rw [if_neg (by simp [hkind])]
  case sameKind => rw [if_pos hkind, ← storedSource_startCountdown]; rfl

end Sys2Proof
end

section
/-! SUPPORT. The emission of an edge: the offers it carries (R78), and a cause that emits it or consumes a skip (R92). -/

namespace Sys2Proof.Machine

open Sys2Proof.Safety

/-- The slot's group is enabled and bound to the source. -/
def State.boundTo (s : State) (n : SourceNo) (g : GroupNo) : Bool :=
  (s.group g).any (fun x => x.enabled && decide (x.record.source = n))

theorem State.boundTo_iff {s : State} {n : SourceNo} {g : GroupNo} :
    s.boundTo n g = true ↔ ∃ x ∈ s.group g, x.state ≠ .disabled ∧ x.record.source = n := by
  unfold State.boundTo
  cases s.group g <;> simp [Group.enabled]

theorem groupOffers_groups (s : State) (n : SourceNo) :
    (s.groupOffers n).map GroupOffer.group = (List.finRange 32).filter (s.boundTo n) := by
  rw [State.groupOffers, List.map_filterMap, ← List.filterMap_eq_filter]
  congr 1
  funext g
  show _ = if s.boundTo n g = true then some g else none
  unfold State.boundTo
  rcases s.group g with - | x
  · rfl
  · simp only [Option.any_some]
    split <;> rfl

theorem childOffers_children (s : State) (n : SourceNo) :
    (s.childOffers n).map ChildOffer.child = (List.finRange 4).filter (fun c => (s.source c).dividesFrom n) := by
  rw [State.childOffers, List.map_filterMap, ← List.filterMap_eq_filter]
  congr 1
  funext c
  unfold Option.guard
  split <;> rfl

theorem groupOffers_fresh {s : State} {n : SourceNo} {o : GroupOffer} (h : o ∈ s.groupOffers n) : o.void = false := by
  obtain ⟨g, -, hg⟩ := List.mem_filterMap.mp h
  split at hg
  · split at hg
    · cases hg; rfl
    · cases hg
  · cases hg

theorem childOffers_fresh {s : State} {n : SourceNo} {o : ChildOffer} (h : o ∈ s.childOffers n) : o.void = false := by
  obtain ⟨c, -, hc⟩ := List.mem_filterMap.mp h
  split at hc
  · cases hc; rfl
  · cases hc

theorem dividesFrom_iff {x : Source} {n : SourceNo} :
    x.dividesFrom n = true ↔ x.running = true ∧ ∃ r ∈ x.record, ∃ d, r.kind = .divided n d := by
  unfold Source.dividesFrom
  rcases x.record with - | r
  · simp
  · simp only [Bool.and_eq_true, Option.mem_def, Option.some.injEq, exists_eq_left']
    cases r.kind <;> simp

/-- An edge is forgotten exactly when no delivery of it is left. -/
theorem consEdge_eq (e : Edge) (es : List Edge) : consEdge e es = if e.groups = [] ∧ e.children = [] then es else e :: es := by
  simp only [consEdge, Bool.and_eq_true, List.isEmpty_iff]

/-- The edge that a source emits now, with its offers (R78). -/
def State.newEdge (s : State) (n : SourceNo) : Edge :=
  { source := n, epoch := (s.source n).epoch + 1, groups := s.groupOffers n, children := s.childOffers n }

theorem emitEdge_edges (n : SourceNo) (s : State) : (emitEdge n s).edges = s.edges ++ consEdge (s.newEdge n) [] := rfl

theorem emitOrSkip_of_skip {n : SourceNo} {s : State} (h : (s.source n).skip = true) :
    emitOrSkip n s = s.setSource n { s.source n with skip := false } := if_pos h

theorem emitOrSkip_of_noSkip {n : SourceNo} {s : State} (h : (s.source n).skip = false) : emitOrSkip n s = emitEdge n s :=
  if_neg (by simp [h])

theorem emitOrSkip_events (n : SourceNo) (s : State) : (emitOrSkip n s).events = s.events := by
  rcases emitOrSkip_cases n s with ⟨-, h⟩ | ⟨-, h⟩ <;> rw [h] <;> rfl

end Sys2Proof.Machine
end

section
/-! PROOFS. The emission of an edge and the timers of a source (R77 to R94). -/

namespace Sys2Proof.Machine

open Sys2Proof.Safety

/-- Settles O16: the offers are the filtered slot numbers, in their order. -/
theorem edgeIsEmitted : Obligations.EdgeIsEmitted := by
  intro n s
  refine ⟨rfl, s.newEdge n, by rw [emitEdge_edges, consEdge_eq], rfl, rfl, ?_, ?_, fun o ho => groupOffers_fresh ho,
    fun o ho => childOffers_fresh ho, fun g => ?_, fun c => ?_⟩
  · show ((s.groupOffers n).map _).Pairwise _
    rw [groupOffers_groups]
    exact (List.pairwise_lt_finRange 32).filter _
  · show ((s.childOffers n).map _).Nodup
    rw [childOffers_children]
    exact (List.nodup_finRange 4).filter _
  · show g ∈ (s.groupOffers n).map _ ↔ _
    rw [groupOffers_groups, List.mem_filter, ← State.boundTo_iff]
    simp
  · show c ∈ (s.childOffers n).map _ ↔ _
    rw [childOffers_children, List.mem_filter, ← dividesFrom_iff]
    simp

/-! ### The expiries, by the kind and the sub-state of the source -/

theorem timerExpired_of_timer {n : SourceNo} {s : State} {r : SourceRecord} {p : BitVec 16} (hrun : (s.source n).running = true)
    (hr : (s.source n).record = some r) (hk : r.kind = .timer p) :
    timerExpired n s = emitOrSkip n (s.setSource n { s.source n with countdown := some (r.duration p) }) := by
  simp only [timerExpired, hrun, hr, hk]

theorem timerExpired_of_stopped {n : SourceNo} {s : State} (h : (s.source n).running = false) : timerExpired n s = s := by
  unfold timerExpired
  cases hr : (s.source n).record <;> simp only [hr, h]

/-- A watch that does not run does not expire (log 4). -/
theorem watchExpired_idle {n : SourceNo} {s : State}
    (h : (s.source n).running = false ∨ (s.source n).lock ≠ .locked ∨ (s.source n).watch = none) : watchExpired n s = s := by
  unfold watchExpired
  simp only
  split
  · next r hrun hr =>
    split
    · exact if_neg fun ⟨hl, hw⟩ => by simp [hrun, hl, Option.isSome_iff_ne_none.mp hw] at h
    · rfl
    · rfl
  · rfl

/-- A stand-in timer that does not run does not expire (log 4). -/
theorem standInExpired_idle {n : SourceNo} {s : State}
    (h : (s.source n).running = false ∨ (s.source n).lock ≠ .holdover ∨ (s.source n).standIn = none) : standInExpired n s = s := by
  unfold standInExpired
  simp only
  split
  · next r hrun hr =>
    split
    · exact if_neg fun ⟨hl, hw⟩ => by simp [hrun, hl, Option.isSome_iff_ne_none.mp hw] at h
    · rfl
    · rfl
  · rfl

theorem watchExpired_of_locked {n : SourceNo} {s : State} {r : SourceRecord} {p g : BitVec 16} {limit : Byte} {l : SyncLine}
    (hrun : (s.source n).running = true) (hr : (s.source n).record = some r) (hk : r.kind = .external p g limit l)
    (hl : (s.source n).lock = .locked) (hw : (s.source n).watch ≠ none) :
    watchExpired n s = if limit = 0 then enterLost n s else
      (standInEdge n 1 (r.duration p) (r.duration g) s).raise
        (sourceEvent .syncMissed n ((standInEdge n 1 (r.duration p) (r.duration g) s).source n).epoch 0) := by
  simp only [watchExpired, hrun, hr, hk]
  exact if_pos ⟨hl, Option.isSome_iff_ne_none.mpr hw⟩

theorem standInExpired_of_holdover {n : SourceNo} {s : State} {r : SourceRecord} {p g : BitVec 16} {limit : Byte} {l : SyncLine}
    (hrun : (s.source n).running = true) (hr : (s.source n).record = some r) (hk : r.kind = .external p g limit l)
    (hl : (s.source n).lock = .holdover) (hw : (s.source n).standIn ≠ none) :
    standInExpired n s = if (s.source n).holdover < limit
      then standInEdge n ((s.source n).holdover + 1) (r.duration p) (r.duration g) s else enterLost n s := by
  simp only [standInExpired, hrun, hr, hk]
  exact if_pos ⟨hl, Option.isSome_iff_ne_none.mpr hw⟩

/-- A byte as an event detail. -/
theorem detail_toNat (b : Byte) : detail b.toNat = b.setWidth 16 := by
  apply BitVec.eq_of_toNat_eq
  simp [detail]

/-- The entry into LOST, in one record (R85, R86). -/
theorem enterLost_eq (n : SourceNo) (s : State) : enterLost n s = { s with
    sources := s.sources.set n { s.source n with lock := .lost, watch := none, standIn := none, absorbWindow := none }
    events := s.events.raise { kind := .syncLost, group := none, source := some n, epoch := some (s.source n).epoch,
                               detail := (s.source n).holdover.setWidth 16 } } := by
  rw [← detail_toNat]
  rfl

/-- Settles O17: each expiry by the kind, the sub-state and the limit of its source. -/
theorem timerExpiries : Obligations.TimerExpiries := by
  intro n s hra
  refine ⟨fun r p hrun hr hk => ?timer, fun r p g limit l hrun hr hk => ⟨fun hl hw => ?watch, fun hl hw => ?standIn⟩, ?close,
    fun hstop => ?stopped, fun h => ?noWatch, fun h => ?noStandIn⟩
  case timer =>
    have he : exec (.timerExpiry n) s = .next (timerExpired n s) := unlessReset_of_false hra _
    rw [he, timerExpired_of_timer hrun hr hk]
    refine ⟨fun hsk => ?_, fun hsk => ?_⟩
    · rw [emitOrSkip_of_skip (by simpa using hsk), State.setSource_setSource, State.source_setSource_same]
      rfl
    · rw [emitOrSkip_of_noSkip (by simpa using hsk)]
      rfl
  case watch =>
    have he : exec (.watchExpiry n) s = .next (watchExpired n s) := unlessReset_of_false hra _
    rw [he, watchExpired_of_locked hrun hr hk hl hw]
    refine ⟨fun h0 => ?_, fun h0 => ⟨_, rfl, ?_⟩⟩
    · rw [if_pos h0, enterLost_eq]
    · rw [if_neg h0, State.raise, standInEdge, emitOrSkip_events]
      rfl
  case standIn =>
    have he : exec (.standInExpiry n) s = .next (standInExpired n s) := unlessReset_of_false hra _
    rw [he, standInExpired_of_holdover hrun hr hk hl hw]
    refine ⟨fun h => ?_, fun h => ?_⟩
    · rw [if_pos h]
      simp only [standInEdge, hl]
      rfl
    · rw [if_neg (BitVec.not_lt.mpr h), enterLost_eq]
  case close => exact unlessReset_of_false hra _
  case stopped =>
    refine ⟨(unlessReset_of_false hra _).trans ?_, (unlessReset_of_false hra _).trans ?_, (unlessReset_of_false hra _).trans ?_⟩
    · rw [timerExpired_of_stopped hstop]
    · rw [watchExpired_idle (.inl hstop)]
    · rw [standInExpired_idle (.inl hstop)]
  case noWatch => exact (unlessReset_of_false hra _).trans (by rw [watchExpired_idle (.inr h)])
  case noStandIn => exact (unlessReset_of_false hra _).trans (by rw [standInExpired_idle (.inr h)])

end Sys2Proof.Machine
end

section
/-! SUPPORT. Which waiting offer a delivery takes (R78 to R80): the equations of the two searches. -/

namespace Sys2Proof.Machine

open Sys2Proof.Safety

/-- An edge that offers nothing to the child is passed over. -/
theorem takeChildOffer_of_other {n c : SourceNo} {e : Edge} {es : List Edge}
    (h : e.source = n → ∀ o ∈ e.children, o.child ≠ c) :
    takeChildOffer n c (e :: es) = (takeChildOffer n c es).map (fun (v, rest) => (v, e :: rest)) := by
  rw [takeChildOffer]
  split
  · next hs =>
    have hf : e.children.find? (fun o => o.child == c) = none := by simpa using h hs
    rw [hf]
  · rfl

/-- The first edge that offers something to the child gives its first offer to it. -/
theorem takeChildOffer_of_offer {n c : SourceNo} {e : Edge} {es : List Edge} {o₁ o₂ : List ChildOffer} {v : Bool}
    (hs : e.source = n) (hc : e.children = o₁ ++ ⟨c, v⟩ :: o₂) (h : ∀ o ∈ o₁, o.child ≠ c) :
    takeChildOffer n c (e :: es) = some (v, consEdge { e with children := o₁ ++ o₂ } es) := by
  have hf : e.children.find? (fun o => o.child == c) = some ⟨c, v⟩ :=
    List.find?_eq_some_iff_append.mpr ⟨by simp, o₁, o₂, hc, by simpa using h⟩
  have hnot : (⟨c, v⟩ : ChildOffer) ∉ o₁ := fun hm => h _ hm rfl
  rw [takeChildOffer, if_pos hs, hf]
  simp only [hc, List.erase_append_right _ hnot, List.erase_cons_head]

/-- The offers of an edge to a child: none, or a first one. -/
theorem childOffer_cases (c : SourceNo) (os : List ChildOffer) :
    (∀ o ∈ os, o.child ≠ c) ∨ ∃ o₁ v o₂, os = o₁ ++ ⟨c, v⟩ :: o₂ ∧ ∀ o ∈ o₁, o.child ≠ c := by
  rcases hf : os.find? (fun o => o.child == c) with - | o
  · exact .inl (by simpa using hf)
  · obtain ⟨ho, o₁, o₂, he, hn⟩ := List.find?_eq_some_iff_append.mp hf
    obtain rfl : o.child = c := by simpa using ho
    exact .inr ⟨o₁, o.void, o₂, he, by simpa using hn⟩

/-- A list of edges whose first, earlier ones apart, meets a condition. -/
theorem cons_eq_append_cons {e f : Edge} {es before after : List Edge} (h : e :: es = before ++ f :: after) :
    (before = [] ∧ e = f ∧ es = after) ∨ ∃ b, before = e :: b ∧ es = b ++ f :: after := by
  cases before with
  | nil => obtain ⟨rfl, rfl⟩ := List.cons.inj h; exact .inl ⟨rfl, rfl, rfl⟩
  | cons d b => obtain ⟨rfl, rfl⟩ := List.cons.inj h; exact .inr ⟨b, rfl, rfl⟩

/-- The offer taken for a child: the first of the oldest edge that has one (R80). -/
theorem takeChildOffer_iff (n c : SourceNo) (void : Bool) : ∀ es rest : List Edge,
    takeChildOffer n c es = some (void, rest) ↔
      ∃ before e o₁ o₂ after, es = before ++ e :: after ∧ (∀ d ∈ before, d.source = n → ∀ o ∈ d.children, o.child ≠ c) ∧
        e.source = n ∧ e.children = o₁ ++ ⟨c, void⟩ :: o₂ ∧ (∀ o ∈ o₁, o.child ≠ c) ∧
        rest = before ++ (if e.groups = [] ∧ o₁ ++ o₂ = [] then after else { e with children := o₁ ++ o₂ } :: after) := by
  intro es
  induction es with
  | nil =>
    intro rest
    refine iff_of_false nofun ?_
    rintro ⟨before, e, _, _, after, h, -⟩
    cases before <;> cases h
  | cons e es ih =>
    intro rest
    by_cases hother : e.source = n → ∀ o ∈ e.children, o.child ≠ c
    · rw [takeChildOffer_of_other hother, Option.map_eq_some_iff]
      constructor
      · rintro ⟨⟨v, rest'⟩, htake, heq⟩
        cases heq
        obtain ⟨before, f, o₁, o₂, after, rfl, hb, hf⟩ := (ih rest').mp htake
        obtain ⟨hsrc, hch, hne, rfl⟩ := hf
        refine ⟨e :: before, f, o₁, o₂, after, rfl, ?_, hsrc, hch, hne, rfl⟩
        intro d hd
        rcases List.mem_cons.mp hd with rfl | hd
        · exact hother
        · exact hb d hd
      · rintro ⟨before, f, o₁, o₂, after, heq, hb, hsrc, hch, hne, rfl⟩
        rcases cons_eq_append_cons heq with ⟨-, rfl, -⟩ | ⟨b, rfl, rfl⟩
        · exact absurd rfl (hother hsrc ⟨c, void⟩ (by simp [hch]))
        · exact ⟨(void, _), (ih _).mpr ⟨b, f, o₁, o₂, after, rfl, fun d hd => hb d (List.mem_cons_of_mem _ hd), hsrc, hch, hne, rfl⟩, rfl⟩
    · obtain ⟨hsrc, hall⟩ := Classical.not_imp.mp hother
      obtain ⟨p₁, v, p₂, hp, hpne⟩ := (childOffer_cases c e.children).resolve_left hall
      rw [takeChildOffer_of_offer hsrc hp hpne, Option.some.injEq, Prod.mk.injEq, consEdge_eq]
      constructor
      · rintro ⟨rfl, rfl⟩
        exact ⟨[], e, p₁, p₂, es, rfl, nofun, hsrc, hp, hpne, rfl⟩
      · rintro ⟨before, f, o₁, o₂, after, heq, hb, hfsrc, hch, hne, rfl⟩
        rcases cons_eq_append_cons heq with ⟨rfl, rfl, rfl⟩ | ⟨b, rfl, rfl⟩
        · have hsame := (takeChildOffer_of_offer (es := es) hsrc hp hpne).symm.trans (takeChildOffer_of_offer hsrc hch hne)
          simpa only [Option.some.injEq, Prod.mk.injEq, consEdge_eq, List.nil_append] using hsame
        · exact absurd (hb e List.mem_cons_self) hother

/-- An edge that offers nothing to the group is passed over. -/
theorem takeGroupOffer_of_other {n : SourceNo} {g : GroupNo} {e : Edge} {es : List Edge}
    (h : e.source = n → ∀ o ∈ e.groups, o.group ≠ g) :
    takeGroupOffer n g (e :: es) = (takeGroupOffer n g es).map (fun (ep, v, rest) => (ep, v, e :: rest)) := by
  rw [takeGroupOffer, if_neg]
  rintro ⟨hs, ha⟩
  obtain ⟨o, ho, hg⟩ := List.any_eq_true.mp ha
  exact h hs o ho (by simpa using hg)

/-- The first edge that offers something to the group gives its first offer, when that is to the group. -/
theorem takeGroupOffer_of_head {n : SourceNo} {g : GroupNo} {e : Edge} {es : List Edge} {os : List GroupOffer} {v : Bool}
    (hs : e.source = n) (hg : e.groups = ⟨g, v⟩ :: os) :
    takeGroupOffer n g (e :: es) = some (e.epoch, v, consEdge { e with groups := os } es) := by
  rw [takeGroupOffer, if_pos ⟨hs, by simp [hg]⟩]
  simp only [hg, if_true]

/-- While another group's offer stands first in it, the edge blocks the delivery (R79). -/
theorem takeGroupOffer_of_blocked {n : SourceNo} {g : GroupNo} {e : Edge} {es : List Edge} {o : GroupOffer}
    {os : List GroupOffer} (hs : e.source = n) (hg : e.groups = o :: os) (hne : o.group ≠ g) (hm : ∃ p ∈ e.groups, p.group = g) :
    takeGroupOffer n g (e :: es) = none := by
  rw [takeGroupOffer, if_pos ⟨hs, by simpa using hm⟩]
  simp only [hg, if_neg hne]

/-- The offer taken for a group: the first left of the oldest edge that has one (R79). -/
theorem takeGroupOffer_iff (n : SourceNo) (g : GroupNo) (ep : BitVec 32) (void : Bool) : ∀ es rest : List Edge,
    takeGroupOffer n g es = some (ep, void, rest) ↔
      ∃ before e os after, es = before ++ e :: after ∧ (∀ d ∈ before, d.source = n → ∀ o ∈ d.groups, o.group ≠ g) ∧
        e.source = n ∧ e.epoch = ep ∧ e.groups = ⟨g, void⟩ :: os ∧
        rest = before ++ (if os = [] ∧ e.children = [] then after else { e with groups := os } :: after) := by
  intro es
  induction es with
  | nil =>
    intro rest
    refine iff_of_false nofun ?_
    rintro ⟨before, e, _, after, h, -⟩
    cases before <;> cases h
  | cons e es ih =>
    intro rest
    by_cases hother : e.source = n → ∀ o ∈ e.groups, o.group ≠ g
    · rw [takeGroupOffer_of_other hother, Option.map_eq_some_iff]
      constructor
      · rintro ⟨⟨ep', v, rest'⟩, htake, heq⟩
        cases heq
        obtain ⟨before, f, os, after, rfl, hb, hf⟩ := (ih rest').mp htake
        obtain ⟨hsrc, hep, hgr, rfl⟩ := hf
        refine ⟨e :: before, f, os, after, rfl, ?_, hsrc, hep, hgr, rfl⟩
        intro d hd
        rcases List.mem_cons.mp hd with rfl | hd
        · exact hother
        · exact hb d hd
      · rintro ⟨before, f, os, after, heq, hb, hsrc, hep, hgr, rfl⟩
        rcases cons_eq_append_cons heq with ⟨-, rfl, -⟩ | ⟨b, rfl, rfl⟩
        · exact absurd rfl (hother hsrc ⟨g, void⟩ (by simp [hgr]))
        · exact ⟨(ep, void, _), (ih _).mpr ⟨b, f, os, after, rfl, fun d hd => hb d (List.mem_cons_of_mem _ hd), hsrc, hep, hgr, rfl⟩, rfl⟩
    · obtain ⟨hsrc, hall⟩ := Classical.not_imp.mp hother
      have hm : ∃ p ∈ e.groups, p.group = g := by simpa using hall
      have hhead : ∀ before f os after, e :: es = before ++ f :: after →
          (∀ d ∈ before, d.source = n → ∀ o ∈ d.groups, o.group ≠ g) → f.groups = ⟨g, void⟩ :: os →
          before = [] ∧ e = f ∧ es = after := by
        intro before f os after heq hb _
        rcases cons_eq_append_cons heq with h | ⟨b, rfl, rfl⟩
        · exact h
        · exact absurd (hb e List.mem_cons_self) hother
      obtain ⟨o, os', hgr⟩ : ∃ o os', e.groups = o :: os' := by
        rcases hg : e.groups with - | ⟨o, os'⟩
        · simp [hg] at hm
        · exact ⟨o, os', rfl⟩
      by_cases ho : o.group = g
      · obtain ⟨g', v⟩ := o
        obtain rfl : g' = g := ho
        rw [takeGroupOffer_of_head hsrc hgr, Option.some.injEq, Prod.mk.injEq, Prod.mk.injEq, consEdge_eq]
        constructor
        · rintro ⟨rfl, rfl, rfl⟩
          exact ⟨[], e, os', es, rfl, nofun, hsrc, rfl, hgr, rfl⟩
        · rintro ⟨before, f, os, after, heq, hb, -, rfl, hfg, rfl⟩
          obtain ⟨rfl, rfl, rfl⟩ := hhead _ _ _ _ heq hb hfg
          rw [hgr] at hfg
          cases hfg
          exact ⟨rfl, rfl, rfl⟩
      · rw [takeGroupOffer_of_blocked hsrc hgr ho hm]
        refine iff_of_false nofun ?_
        rintro ⟨before, f, os, after, heq, hb, -, -, hfg, -⟩
        obtain ⟨rfl, rfl, rfl⟩ := hhead _ _ _ _ heq hb hfg
        rw [hgr] at hfg
        cases hfg
        exact ho rfl

end Sys2Proof.Machine
end

section
/-! PROOFS. The deliveries of edges to children and to groups (R78 to R80, R90). -/

namespace Sys2Proof.Machine

open Sys2Proof.Safety

theorem deliverToChild_of_offer {n c : SourceNo} {s : State} {void : Bool} {rest : List Edge}
    (h : takeChildOffer n c s.edges = some (void, rest)) :
    deliverToChild n c s = if void then s.setEdges rest else parentEdge c (s.setEdges rest) := by
  rw [deliverToChild, h]

theorem deliverToGroup_of_offer {n : SourceNo} {g : GroupNo} {s : State} {ep : BitVec 32} {void : Bool} {rest : List Edge}
    (h : takeGroupOffer n g s.edges = some (ep, void, rest)) :
    deliverToGroup n g s = if void then s.setEdges rest else settle (edgeToGroup g n ep (s.setEdges rest)) := by
  rw [deliverToGroup, h]

theorem parentEdge_of_stopped {c : SourceNo} {s : State} (h : (s.source c).running = false) : parentEdge c s = s := by
  unfold parentEdge
  cases hr : (s.source c).record <;> simp only [hr, h]

theorem parentEdge_of_divided {c : SourceNo} {s : State} {r : SourceRecord} {p : SourceNo} {d : Nat}
    (hrun : (s.source c).running = true) (hr : (s.source c).record = some r) (hk : r.kind = .divided p d) :
    parentEdge c s = if (s.source c).phase + 1 < d then s.setSource c { s.source c with phase := (s.source c).phase + 1 }
      else emitOrSkip c (s.setSource c { s.source c with phase := 0 }) := by
  simp only [parentEdge, hrun, hr, hk]

/-- Settles O19: the search by its equations, and the edge taken by the phase count and the skip flag. -/
theorem parentEdgeIsCounted : Obligations.ParentEdgeIsCounted := by
  refine ⟨fun n c es rest void => takeChildOffer_iff n c void es rest, fun parent child s hra => ?_⟩
  have he : exec (.parentEdgeDelivery parent child) s = .next (deliverToChild parent child s) := unlessReset_of_false hra _
  rw [he]
  refine ⟨fun h => ?none, fun rest h => ?void, fun rest h hstop => ?stopped,
    fun rest r p d h hrun hr hk => ⟨fun hlt => ?counts, fun hle hsk => ?skips, fun hle hsk => ?emits⟩⟩
  case none => rw [deliverToChild, h]
  case void => rw [deliverToChild_of_offer h]; rfl
  case stopped => rw [deliverToChild_of_offer h, if_neg (by decide), parentEdge_of_stopped (by simpa using hstop)]; rfl
  all_goals rw [deliverToChild_of_offer h, if_neg (by decide), parentEdge_of_divided (s := s.setEdges rest) hrun hr hk]
  case counts => rw [if_pos (by simpa using hlt)]; rfl
  case skips =>
    rw [if_neg (by simpa using hle), emitOrSkip_of_skip (by simpa using hsk), State.setSource_setSource,
      State.source_setSource_same]
    rfl
  case emits =>
    rw [if_neg (by simpa using hle), emitOrSkip_of_noSkip (by simpa using hsk)]
    rfl

/-- Settles O20: the search by its equations. -/
theorem deliveriesAreTakenInOrder : Obligations.DeliveriesAreTakenInOrder := by
  refine ⟨fun n g es rest ep void => takeGroupOffer_iff n g ep void es rest, fun n g s hra => ?_⟩
  have he : exec (.edgeDelivery n g) s = .next (deliverToGroup n g s) := unlessReset_of_false hra _
  rw [he]
  refine ⟨fun h => ?_, fun ep rest h => ?_⟩
  · rw [deliverToGroup, h]
  · rw [deliverToGroup_of_offer h]; rfl

end Sys2Proof.Machine
end

section
/-! SUPPORT. A rising SYNC edge at one source, and at every source in ascending number (R83 to R88, log 12). -/

namespace Sys2Proof.Machine

open Sys2Proof.Safety

/-- The watch of a RUNNING EXTERNAL source that follows the line; none for any other source (R83). -/
def Source.followed (line : SyncLine) (x : Source) : Option Nat :=
  match x.running, x.record with
  | true, some r =>
    match r.kind with
    | .external p g _ l => if l = line then some (r.watchDuration p g) else none
    | .timer _ => none
    | .divided _ _ => none
  | _, _ => none

/-- The edge comes in an open absorb window of HOLDOVER (R87). -/
def Source.absorbs (x : Source) : Bool := decide (x.lock = .holdover) && x.absorbWindow.isSome

/-- A cause of an edge has been emitted, or has consumed a skip (R77, R92, R94). -/
def Source.caused (x : Source) : Source :=
  { x with skip := false, epoch := if x.skip then x.epoch else x.epoch + 1, line := if x.skip then x.line else !x.line }

/-- The source locks, from whatever sub-state; in LOCKED the watch alone starts anew (R84, R88). -/
def Source.locks (x : Source) (watch : Nat) : Source :=
  if x.lock = .locked then { x with watch := some watch } else x.relock watch

/-- What a rising edge makes of a source. -/
def Source.synced (line : SyncLine) (x : Source) : Source :=
  match x.followed line with
  | none => x
  | some w => if x.absorbs then x.locks w else (x.locks w).caused

/-- The source emits an edge at the rising edge. -/
def Source.emitsAt (line : SyncLine) (x : Source) : Bool := (x.followed line).isSome && !x.absorbs && !x.skip

/-- The source raises SYNC_REGAINED at the rising edge. -/
def Source.regainsAt (line : SyncLine) (x : Source) : Bool := (x.followed line).isSome && decide (x.lock = .lost)

/-- The record of SYNC_REGAINED (R163). -/
def regained (n : SourceNo) (epoch : BitVec 32) : EventRecord :=
  { kind := .syncRegained, group := none, source := some n, epoch := some epoch, detail := 0 }

theorem dividesFrom_congr {x y : Source} (hrun : y.running = x.running) (hr : y.record = x.record) (n : SourceNo) :
    y.dividesFrom n = x.dividesFrom n := by
  rw [Source.dividesFrom, Source.dividesFrom, hrun, hr]

/-- The edge that a source would emit depends on the groups, on which sources divide, and on its own epoch number. -/
theorem newEdge_congr {s t : State} {n : SourceNo} (hg : t.groups = s.groups)
    (hd : ∀ c, (t.source c).dividesFrom n = (s.source c).dividesFrom n) (he : (t.source n).epoch = (s.source n).epoch) :
    t.newEdge n = s.newEdge n := by
  have hgroups : t.groupOffers n = s.groupOffers n := by simp only [State.groupOffers, State.group, hg]
  have hchildren : t.childOffers n = s.childOffers n := by simp only [State.childOffers, hd]
  rw [State.newEdge, State.newEdge, hgroups, hchildren, he]

/-- A cause of an edge at a source whose timers have moved before. -/
theorem emitOrSkip_setSource {n : SourceNo} {s : State} {y : Source} (hrun : y.running = (s.source n).running)
    (hr : y.record = (s.source n).record) (he : y.epoch = (s.source n).epoch) :
    emitOrSkip n (s.setSource n y) = { s with
      sources := s.sources.set n y.caused
      edges := s.edges ++ if y.skip then [] else consEdge (s.newEdge n) [] } := by
  have hsame : (s.setSource n y).source n = y := State.source_setSource_same s n y
  rcases hsk : y.skip
  · have hedge : (s.setSource n y).newEdge n = s.newEdge n := by
      refine newEdge_congr rfl (fun c => ?_) (by rw [hsame, he])
      rw [State.source_setSource]
      split
      · next h => subst h; exact dividesFrom_congr hrun hr n
      · rfl
    have hcaused : y.caused = { y with epoch := y.epoch + 1, line := !y.line } := by simp [Source.caused, hsk]
    rw [emitOrSkip_of_noSkip (by rw [hsame, hsk]), emitEdge_eq, emitEdge_edges, hedge, hsame, hcaused]
    simp
  · have hcaused : y.caused = { y with skip := false } := by simp [Source.caused, hsk]
    rw [emitOrSkip_of_skip (by rw [hsame, hsk]), State.setSource_setSource, hsame, hcaused]
    simp [State.setSource]

theorem followed_eq_some {line : SyncLine} {x : Source} {w : Nat} (h : x.followed line = some w) :
    ∃ r p g limit, x.running = true ∧ x.record = some r ∧ r.kind = .external p g limit line ∧ w = r.watchDuration p g := by
  rcases hrun : x.running
  · cases hr : x.record <;> simp [Source.followed, hrun, hr] at h
  · rcases hr : x.record with - | r
    · simp [Source.followed, hrun, hr] at h
    · rcases hk : r.kind with p | ⟨p, g, limit, l⟩ | ⟨p, d⟩ <;> simp only [Source.followed, hrun, hr, hk] at h
      · cases h
      · split at h
        · next hl => cases h; subst hl; exact ⟨r, p, g, limit, rfl, rfl, hk, rfl⟩
        · cases h
      · cases h

theorem observeSync_of_followed {line : SyncLine} {n : SourceNo} {s : State} {w : Nat}
    (h : (s.source n).followed line = some w) : observeSync line n s = syncAtSource n w s := by
  obtain ⟨r, p, g, limit, hrun, hr, hk, rfl⟩ := followed_eq_some h
  simp only [observeSync, hrun, hr, hk, if_true]

theorem observeSync_of_not_followed {line : SyncLine} {n : SourceNo} {s : State}
    (h : (s.source n).followed line = none) : observeSync line n s = s := by
  rcases hrun : (s.source n).running
  · cases hr : (s.source n).record <;> simp only [observeSync, hrun, hr]
  · rcases hr : (s.source n).record with - | r
    · simp only [observeSync, hrun, hr]
    · rcases hk : r.kind with p | ⟨p, g, limit, l⟩ | ⟨p, d⟩ <;>
        simp only [observeSync, Source.followed, hrun, hr, hk] at h ⊢
      split at h
      · cases h
      · next hl => rw [if_neg hl]

theorem Source.locks_fields (x : Source) (w : Nat) : (x.locks w).running = x.running ∧ (x.locks w).record = x.record ∧
    (x.locks w).epoch = x.epoch ∧ (x.locks w).skip = x.skip := by
  unfold Source.locks
  split <;> exact ⟨rfl, rfl, rfl, rfl⟩

/-- A rising edge at a follower: it locks, and emits or consumes its skip unless the edge is absorbed (R84, R87, R88). -/
theorem syncAtSource_eq (n : SourceNo) (w : Nat) (s : State) :
    syncAtSource n w s = if (s.source n).absorbs then s.setSource n ((s.source n).locks w)
      else
        let t := emitOrSkip n (s.setSource n ((s.source n).locks w))
        if (s.source n).lock = .lost then t.raise (regained n (t.source n).epoch) else t := by
  unfold syncAtSource Source.locks Source.absorbs
  simp only
  rcases hl : (s.source n).lock
  · simp
  · simp
  · by_cases ha : (s.source n).absorbWindow.isSome = true <;> simp [ha]
  · simp [regained, sourceEvent, detail]

/-- What one source does at a rising edge, in one record. -/
theorem observeSync_eq (line : SyncLine) (n : SourceNo) (s : State) :
    observeSync line n s = { s with
      sources := s.sources.set n ((s.source n).synced line)
      edges := s.edges ++ if (s.source n).emitsAt line then consEdge (s.newEdge n) [] else []
      events := if (s.source n).regainsAt line then s.events.raise (regained n ((s.source n).synced line).epoch)
        else s.events } := by
  rcases hf : (s.source n).followed line with - | w
  · have hself : s.sources.set n (s.source n) = s.sources := Vector.set_getElem_self _
    rw [observeSync_of_not_followed hf]
    simp [Source.synced, Source.emitsAt, Source.regainsAt, hf, hself]
  · obtain ⟨hrun, hr, he, hsk⟩ := (s.source n).locks_fields w
    have hcause := emitOrSkip_setSource hrun hr he
    have hepoch : ((emitOrSkip n (s.setSource n ((s.source n).locks w))).source n) = ((s.source n).locks w).caused := by
      rw [hcause]; exact State.source_setSource_same s n _
    rw [observeSync_of_followed hf, syncAtSource_eq]
    by_cases ha : (s.source n).absorbs = true
    · have hl : (s.source n).lock ≠ .lost := by rintro e; simp [Source.absorbs, e] at ha
      simp [Source.synced, Source.emitsAt, Source.regainsAt, hf, ha, hl, State.setSource]
    · simp only [if_neg ha, hepoch]
      by_cases hl : (s.source n).lock = .lost <;> cases hx : (s.source n).skip <;>
        simp [Source.synced, Source.emitsAt, Source.regainsAt, hf, ha, hl, hcause, hsk, hx, State.raise]

/-! ### Every source in ascending number -/

theorem observeSync_source (line : SyncLine) (n m : SourceNo) (s : State) :
    (observeSync line n s).source m = if n = m then (s.source n).synced line else s.source m := by
  rw [observeSync_eq]
  exact State.source_setSource s n m _

theorem Source.synced_fields (line : SyncLine) (x : Source) :
    (x.synced line).running = x.running ∧ (x.synced line).record = x.record := by
  unfold Source.synced
  split
  · exact ⟨rfl, rfl⟩
  · next w _ =>
    obtain ⟨hrun, hr, -, -⟩ := x.locks_fields w
    split
    · exact ⟨hrun, hr⟩
    · exact ⟨hrun, hr⟩

/-- A source's edge is the one it would have emitted before another source observed the rising edge. -/
theorem observeSync_newEdge {line : SyncLine} {n m : SourceNo} {s : State} (hne : n ≠ m) :
    (observeSync line n s).newEdge m = s.newEdge m := by
  refine newEdge_congr (by rw [observeSync_eq]) (fun c => ?_) (by rw [observeSync_source, if_neg hne])
  rw [observeSync_source]
  split
  · next h =>
    subst h
    obtain ⟨hrun, hr⟩ := (s.source n).synced_fields line
    exact dividesFrom_congr hrun hr m
  · rfl

/-- The rising edge at each source of a list, one after another. -/
def observeEach (line : SyncLine) (ns : List SourceNo) (s : State) : State := ns.foldl (fun t n => observeSync line n t) s

theorem observeEach_source (line : SyncLine) (m : SourceNo) : ∀ (ns : List SourceNo) (s : State), ns.Nodup →
    (observeEach line ns s).source m = if m ∈ ns then (s.source m).synced line else s.source m := by
  intro ns
  induction ns with
  | nil => intro s _; rfl
  | cons n ns ih =>
    intro s hnd
    obtain ⟨hn, hnd⟩ := List.nodup_cons.mp hnd
    refine (ih (observeSync line n s) hnd).trans ?_
    rw [observeSync_source]
    by_cases hm : n = m
    · subst hm; simp [hn]
    · simp [hm, Ne.symm hm]

theorem observeEach_edges (line : SyncLine) : ∀ (ns : List SourceNo) (s : State), ns.Nodup →
    (observeEach line ns s).edges =
      s.edges ++ (ns.filter (fun n => (s.source n).emitsAt line)).flatMap (fun n => consEdge (s.newEdge n) []) := by
  intro ns
  induction ns with
  | nil => intro s _; exact (List.append_nil _).symm
  | cons n ns ih =>
    intro s hnd
    obtain ⟨hn, hnd⟩ := List.nodup_cons.mp hnd
    have hother : ∀ m ∈ ns, n ≠ m := fun m hm h => hn (h ▸ hm)
    have hfilter : ns.filter (fun m => ((observeSync line n s).source m).emitsAt line) = ns.filter (fun m => (s.source m).emitsAt line) :=
      List.filter_congr fun m hm => by rw [observeSync_source, if_neg (hother m hm)]
    refine (ih (observeSync line n s) hnd).trans ?_
    rw [hfilter, List.flatMap_congr (g := fun m => consEdge (s.newEdge m) [])
      fun m hm => by rw [observeSync_newEdge (hother m (List.mem_of_mem_filter hm))]]
    rw [observeSync_eq, List.filter_cons]
    split <;> simp

theorem observeEach_events (line : SyncLine) : ∀ (ns : List SourceNo) (s : State), ns.Nodup →
    (observeEach line ns s).events =
      (ns.filter (fun n => (s.source n).regainsAt line)).foldl
        (fun q n => q.raise (regained n ((s.source n).synced line).epoch)) s.events := by
  intro ns
  induction ns with
  | nil => intro s _; rfl
  | cons n ns ih =>
    intro s hnd
    obtain ⟨hn, hnd⟩ := List.nodup_cons.mp hnd
    have hsame : ∀ m ∈ ns, (observeSync line n s).source m = s.source m :=
      fun m hm => by rw [observeSync_source, if_neg fun h : n = m => hn (h ▸ hm)]
    have hfilter : ns.filter (fun m => ((observeSync line n s).source m).regainsAt line) =
        ns.filter (fun m => (s.source m).regainsAt line) := List.filter_congr fun m hm => by rw [hsame m hm]
    refine (ih (observeSync line n s) hnd).trans ?_
    rw [hfilter, List.foldl_ext _ (fun q m => q.raise (regained m ((s.source m).synced line).epoch)) _
      fun q m hm => by rw [hsame m (List.mem_of_mem_filter hm)]]
    rw [observeSync_eq, List.filter_cons]
    by_cases hreg : (s.source n).regainsAt line = true <;> simp only [hreg, if_true, Bool.false_eq_true, if_false, List.foldl_cons]

theorem observeEach_frame (line : SyncLine) : ∀ (ns : List SourceNo) (s : State),
    ∃ ss es q, observeEach line ns s = { s with sources := ss, edges := es, events := q } := by
  intro ns
  induction ns with
  | nil => exact fun s => ⟨_, _, _, rfl⟩
  | cons n ns ih =>
    intro s
    obtain ⟨ss, es, q, h⟩ := ih (observeSync line n s)
    exact ⟨ss, es, q, h.trans (by rw [observeSync_eq])⟩

end Sys2Proof.Machine
end

section
/-! PROOFS. A rising SYNC edge (R83 to R88, log 12). -/

namespace Sys2Proof.Machine

open Sys2Proof.Safety

theorem followed_of_external {line : SyncLine} {x : Source} {r : SourceRecord} {p g : BitVec 16} {limit : Byte}
    (hrun : x.running = true) (hr : x.record = some r) (hk : r.kind = .external p g limit line) :
    x.followed line = some (r.duration p + r.duration g) := by
  simp only [Source.followed, hrun, hr, hk, if_true, SourceRecord.watchDuration]

/-- A follower of the line, in one condition on its record. -/
theorem followed_isSome (line : SyncLine) (x : Source) : (x.followed line).isSome = (x.running &&
    (match x.record with
      | some r => (match r.kind with
        | .external _ _ _ l => decide (l = line)
        | .timer _ => false
        | .divided _ _ => false)
      | none => false)) := by
  unfold Source.followed
  cases x.running
  · cases x.record <;> rfl
  · cases x.record with
    | none => rfl
    | some r =>
      simp only [Bool.true_and]
      cases r.kind with
      | timer => rfl
      | divided => rfl
      | external p g limit l => by_cases hl : l = line <;> simp [hl]

/-- What a rising edge makes of a follower, sub-state by sub-state. -/
theorem synced_of_followed {line : SyncLine} {x : Source} {w : Nat} (h : x.followed line = some w) : x.synced line =
    (if x.lock = .locked then
      { x with watch := some w, skip := false, epoch := if x.skip then x.epoch else x.epoch + 1,
               line := if x.skip then x.line else !x.line }
    else if x.lock = .holdover ∧ x.absorbWindow ≠ none then
      { x with lock := .locked, holdover := 0, watch := some w, standIn := none, absorbWindow := none }
    else
      { x with lock := .locked, holdover := 0, watch := some w, standIn := none, absorbWindow := none, skip := false,
               epoch := if x.skip then x.epoch else x.epoch + 1, line := if x.skip then x.line else !x.line }) := by
  have ha : x.absorbs = true ↔ x.lock = .holdover ∧ x.absorbWindow ≠ none := by
    simp [Source.absorbs, Option.isSome_iff_ne_none]
  simp only [Source.synced, h]
  by_cases hl : x.lock = .locked
  · have hno : ¬ x.absorbs = true := by simp [ha, hl]
    rw [if_pos hl, if_neg hno, Source.locks, if_pos hl]
    rfl
  · rw [if_neg hl, Source.locks, if_neg hl]
    simp only [ha]
    split <;> rfl

/-- Settles O18: the four sources observe the edge in turn, each by its own state alone. -/
theorem syncEdgeLocksItsFollowers : Obligations.SyncEdgeLocksItsFollowers := by
  intro line s hra
  have hnd : (List.finRange 4).Nodup := List.nodup_finRange 4
  have hsource : ∀ n, (observeEach line (List.finRange 4) s).source n = (s.source n).synced line := fun n => by
    rw [observeEach_source line n _ s hnd, if_pos (List.mem_finRange n)]
  refine ⟨observeEach line (List.finRange 4) s, unlessReset_of_false hra _, fun n hno => ?other, fun n r p g limit hrun hr hk => ?follower,
    ?events, ?edges, ?frame⟩
  case other =>
    have hnone : (s.source n).followed line = none := by
      rcases hf : (s.source n).followed line with - | w
      · rfl
      · obtain ⟨r, p, g, limit, hrun, hr, hk, -⟩ := followed_eq_some hf
        exact absurd ⟨r, hr, p, g, limit, hrun, hk⟩ hno
    rw [hsource, Source.synced, hnone]
  case follower =>
    rw [hsource, synced_of_followed (followed_of_external hrun hr hk)]
  case events =>
    rw [observeEach_events line _ s hnd]
    simp only [hsource]
    congr 1
    refine List.filter_congr fun n _ => ?_
    have hreorder : ∀ a b c : Bool, (a && b && c) = (c && a && b) := by decide
    rw [Source.regainsAt, followed_isSome]
    exact hreorder _ _ _
  case edges =>
    rw [observeEach_edges line _ s hnd]
    show _ ++ _ = _ ++ List.flatMap (fun n => consEdge (s.newEdge n) []) _
    congr 2
    refine List.filter_congr fun n _ => ?_
    have hreorder : ∀ a b c d : Bool, (a && b && c && d) = (a && d && c && b) := by decide
    rw [Source.emitsAt, followed_isSome, Source.absorbs]
    exact hreorder _ _ _ _
  case frame =>
    obtain ⟨ss, es, q, h⟩ := observeEach_frame line (List.finRange 4) s
    rw [h]

end Sys2Proof.Machine
end

section
/-! SUPPORT. An edge at a group, by the group's kind, state and slots: one equation for each case (R20 to R25, R124 to R129,
R142, R143). -/

namespace Sys2Proof.Machine

open Sys2Proof.Safety

/-- A delivery that takes an offer that is not void (R79). -/
theorem exec_edgeDelivery {n : SourceNo} {g : GroupNo} {s : State} {ep : BitVec 32} {rest : List Edge}
    (hra : s.resetAsserted = false) (h : takeGroupOffer n g s.edges = some (ep, false, rest)) :
    exec (.edgeDelivery n g) s = .next (settle (edgeToGroup g n ep (s.setEdges rest))) :=
  (unlessReset_of_false hra _).trans (by rw [deliverToGroup_of_offer h, if_neg (by decide)])

theorem edgeToGroup_of_live_output {g : GroupNo} {n : SourceNo} {ep : BitVec 32} {s : State} {x : Group}
    (hx : s.group g = some x) (hs : x.state = .live) (hk : x.record.kind = .output) :
    edgeToGroup g n ep s = edgeLive g x n ep s := by simp only [edgeToGroup, hx, hs, hk]

theorem edgeToGroup_of_safe_output {g : GroupNo} {n : SourceNo} {ep : BitVec 32} {s : State} {x : Group}
    (hx : s.group g = some x) (hs : x.state = .safe) (hk : x.record.kind = .output) :
    edgeToGroup g n ep s = edgeSafe g x n ep s := by simp only [edgeToGroup, hx, hs, hk]

theorem edgeToGroup_of_live_input {g : GroupNo} {n : SourceNo} {ep : BitVec 32} {s : State} {x : Group}
    (hx : s.group g = some x) (hs : x.state = .live) (hk : x.record.kind = .input) :
    edgeToGroup g n ep s = edgeInput g x n ep s := by simp only [edgeToGroup, hx, hs, hk]

/-- At a group that is DRAINING or DISABLED an edge has no effect (R25, R144). -/
theorem edgeToGroup_of_inert {g : GroupNo} {n : SourceNo} {ep : BitVec 32} {s : State} {x : Group}
    (hx : s.group g = some x) (hs : x.state = .draining ∨ x.state = .disabled) : edgeToGroup g n ep s = s := by
  rcases hs with hs | hs <;> simp only [edgeToGroup, hx, hs]

theorem jobInFlight_iff {x : Group} : x.jobInFlight = true ↔ x.committing ≠ none := Option.isSome_iff_ne_none

theorem edgeLive_of_free {g : GroupNo} {n : SourceNo} {ep : BitVec 32} {s : State} {x : Group} {img : Image}
    (ha : x.armed = some img) (hc : x.committing = none) : edgeLive g x n ep s = createCommit g x img ep s := by
  simp only [edgeLive, ha]
  exact if_neg fun h => jobInFlight_iff.mp h hc

theorem edgeLive_of_busy {g : GroupNo} {n : SourceNo} {ep : BitVec 32} {s : State} {x : Group} {img : Image}
    (ha : x.armed = some img) (hc : x.committing ≠ none) : edgeLive g x n ep s = edgeBehind g x n ep s := by
  simp only [edgeLive, ha]
  exact if_pos (jobInFlight_iff.mpr hc)

theorem edgeLive_of_unarmed {g : GroupNo} {n : SourceNo} {ep : BitVec 32} {s : State} {x : Group} (ha : x.armed = none) :
    edgeLive g x n ep s = advanceStale g x n ep (raiseLate g x n ep s) := by
  simp only [edgeLive, ha]

/-- IMAGE_LATE, as the queue that holds it (R23). -/
theorem raiseLate_eq {g : GroupNo} {n : SourceNo} {ep : BitVec 32} {s : State} {x : Group} :
    raiseLate g x n ep s = { s with events := match x.filling with
      | some f => s.events.raise { kind := .imageLate, group := some g, source := some n, epoch := some ep,
                                   detail := BitVec.ofNat 16 f.entries.length }
      | none => s.events } := by
  unfold raiseLate
  cases x.filling <;> rfl

theorem enterSafe_of_frozen {g : GroupNo} {n : SourceNo} {ep : BitVec 32} {s : State} {x : Group} (h : x.safeImage = none) :
    enterSafe g x n ep s = (s.raise (edgeEvent .groupStale g n ep 0)).setGroup g { x with state := .safe } := by
  simp [enterSafe, h]

theorem enterSafe_of_busy {g : GroupNo} {n : SourceNo} {ep : BitVec 32} {s : State} {x : Group} (h : x.safeImage ≠ none)
    (hc : x.committing ≠ none) : enterSafe g x n ep s =
      (s.raise (edgeEvent .groupStale g n ep 1)).setGroup g { x with state := .safe, pendingSafe := true } := by
  have hsafe := Option.isSome_iff_ne_none.mpr h
  simp only [enterSafe, hsafe, jobInFlight_iff.mpr hc, if_true]

theorem enterSafe_of_free {g : GroupNo} {n : SourceNo} {ep : BitVec 32} {s : State} {x : Group} (h : x.safeImage ≠ none)
    (hc : x.committing = none) : enterSafe g x n ep s =
      createSafe g { x with state := .safe } ep (s.raise (edgeEvent .groupStale g n ep 1)) := by
  have hsafe := Option.isSome_iff_ne_none.mpr h
  have hfree : ¬ x.jobInFlight = true := fun h => jobInFlight_iff.mp h hc
  simp only [enterSafe, hsafe, if_true, if_neg hfree]

theorem edgeSafe_of_latched {g : GroupNo} {n : SourceNo} {ep : BitVec 32} {s : State} {x : Group}
    (h : x.record.latch = true ∨ x.armed = none) : edgeSafe g x n ep s = s := by
  unfold edgeSafe
  split
  · rfl
  · next hl => rw [h.resolve_left hl]

theorem edgeSafe_of_free {g : GroupNo} {n : SourceNo} {ep : BitVec 32} {s : State} {x : Group} {img : Image}
    (hl : x.record.latch = false) (ha : x.armed = some img) (hc : x.committing = none) : edgeSafe g x n ep s =
      (createCommit g { x with state := .live } img ep s).raise (edgeEvent .groupRecovered g n ep 0) := by
  simp only [edgeSafe, hl, ha]
  exact if_neg fun h => jobInFlight_iff.mp h hc

theorem edgeSafe_of_busy {g : GroupNo} {n : SourceNo} {ep : BitVec 32} {s : State} {x : Group} {img : Image}
    (hl : x.record.latch = false) (ha : x.armed = some img) (hc : x.committing ≠ none) :
    edgeSafe g x n ep s = edgeBehind g x n ep s := by
  simp only [edgeSafe, hl, ha]
  exact if_pos (jobInFlight_iff.mpr hc)

/-- COMMIT_BEHIND, in one record (R22). -/
theorem edgeBehind_eq (g : GroupNo) (x : Group) (n : SourceNo) (ep : BitVec 32) (s : State) : edgeBehind g x n ep s = { s with
    groups := s.groups.set g (some { x with behind := if x.behind = 0xFFFF then 0xFFFF else x.behind + 1 })
    events := s.events.raise { kind := .commitBehind, group := some g, source := some n, epoch := some ep, detail := 0 } } := by
  rw [← satSucc16_eq]
  rfl

end Sys2Proof.Machine
end

section
/-! PROOFS. The deliveries of edges to groups (R20 to R25, R123 to R129, R142 to R144). -/

namespace Sys2Proof.Machine

open Sys2Proof.Safety

theorem SourceRecord.duration_eq (r : SourceRecord) (c : BitVec 16) : r.duration c = c.toNat * (match r.unit with
      | .us1 => 1
      | .us10 => 10
      | .us100 => 100
      | .ms1 => 1000) := by
  unfold SourceRecord.duration TimeUnit.micros
  cases r.unit <;> rfl

theorem marginOf_of_record {s : State} {n : SourceNo} {r : SourceRecord} (h : (s.source n).record = some r) :
    s.marginOf n = r.duration r.margin := by
  rw [State.marginOf, h]
  rfl

/-- Settles O21: the armed image commits when no job is in flight, and is behind otherwise. -/
theorem edgeCommitsOrIsBehind : Obligations.EdgeCommitsOrIsBehind := by
  refine ⟨fun s n r hr => ⟨marginOf_of_record hr, r.duration_eq⟩, fun n g s ep rest x img hra htake hx hk hs ha => ?_⟩
  rw [exec_edgeDelivery hra htake, edgeToGroup_of_live_output (s := s.setEdges rest) hx hs hk]
  refine ⟨fun hc => ?_, fun hc => ?_⟩
  · rw [edgeLive_of_free ha hc]; rfl
  · rw [edgeLive_of_busy ha hc, edgeBehind_eq]; rfl

/-- Settles O22: IMAGE_LATE, then the stale count, and at the limit the three entries into SAFE. -/
theorem edgeFindsNothingToPublish : Obligations.EdgeFindsNothingToPublish := by
  intro n g s ep rest x late hra htake hx hk hs ha hlate
  rw [exec_edgeDelivery hra htake, edgeToGroup_of_live_output (s := s.setEdges rest) hx hs hk, edgeLive_of_unarmed ha]
  have ht : raiseLate g x n ep (s.setEdges rest) = { s with edges := rest, events := late } := by
    rw [hlate, raiseLate_eq]
    cases x.filling <;> rfl
  rw [ht, advanceStale]
  refine ⟨fun h0 => ?off, fun h0 h1 => ?rises, fun h0 h1 => ?_⟩
  case off => rw [if_pos h0]
  case rises => rw [if_neg h0, if_neg h1]; rfl
  rw [if_neg h0, if_pos h1, h1]
  refine ⟨fun hsafe => ?_, fun hsafe hc => ?_, fun hsafe hc => ?_⟩
  · rw [enterSafe_of_frozen (x := { x with staleCount := x.record.staleLimit }) hsafe]; rfl
  · rw [enterSafe_of_busy (x := { x with staleCount := x.record.staleLimit }) hsafe hc]; rfl
  · rw [enterSafe_of_free (x := { x with staleCount := x.record.staleLimit }) hsafe hc]; rfl

/-- Settles O23: the latch, the armed slot and the job in flight decide in SAFE. -/
theorem edgeInSafeOrDraining : Obligations.EdgeInSafeOrDraining := by
  intro n g s ep rest x hra htake hx
  rw [exec_edgeDelivery hra htake]
  refine ⟨fun hs => ?_, fun hk hs h => ?_, fun img hk hs hl ha hc => ?_, fun img hk hs hl ha hc => ?_⟩
  · rw [edgeToGroup_of_inert (s := s.setEdges rest) hx hs]; rfl
  all_goals rw [edgeToGroup_of_safe_output (s := s.setEdges rest) hx hs hk]
  · rw [edgeSafe_of_latched h]; rfl
  · rw [edgeSafe_of_free hl ha hc]; rfl
  · rw [edgeSafe_of_busy hl ha hc, edgeBehind_eq]; rfl

theorem advanceHold_of_free {g : GroupNo} {x : Group} (n : SourceNo) (ep : BitVec 32) (s : State) (h : x.held = false) :
    advanceHold g x n ep s = (x, s) := by
  rw [advanceHold, if_neg (by simp [h])]

/-- The hold count rises below the hold limit (R142). -/
theorem advanceHold_of_below {g : GroupNo} {x : Group} (n : SourceNo) (ep : BitVec 32) (s : State) (h : x.held = true)
    (hl : x.record.holdLimit = 0 ∨ satSucc8 x.holdCount ≠ x.record.holdLimit) :
    advanceHold g x n ep s = ({ x with holdCount := satSucc8 x.holdCount }, s) := by
  rw [advanceHold, if_pos h]
  exact if_neg fun ⟨h0, hc⟩ => hl.elim h0 fun hne => hne hc

/-- At the hold limit the hold ends (R142). -/
theorem advanceHold_of_limit {g : GroupNo} {x : Group} (n : SourceNo) (ep : BitVec 32) (s : State) (h : x.held = true)
    (h0 : x.record.holdLimit ≠ 0) (hl : satSucc8 x.holdCount = x.record.holdLimit) :
    advanceHold g x n ep s = ({ ({ x with holdCount := satSucc8 x.holdCount } : Group).swapPending with held := false },
      s.raise (edgeEvent .holdExpired g n ep (satSucc8 x.holdCount).toNat)) := by
  rw [advanceHold, if_pos h]
  exact if_pos ⟨h0, hl⟩

theorem satSucc8_eq (c : Byte) : satSucc8 c = if c = 0xFF then 0xFF else c + 1 := by
  unfold satSucc8
  split
  · next h => exact h
  · rfl

/-- The hold step keeps what a capture asks of the group. -/
theorem advanceHold_captureInFlight (g : GroupNo) (x : Group) (n : SourceNo) (ep : BitVec 32) (s : State) :
    (advanceHold g x n ep s).1.captureInFlight = x.captureInFlight := by
  unfold advanceHold
  split
  · simp only
    split
    · exact Group.swapPending_captureInFlight _
    · rfl
  · rfl

/-- Settles O24: the hold step first, whose three cases the premise names, and then the capture. -/
theorem edgeAtInputGroup : Obligations.EdgeAtInputGroup := by
  intro n g s ep rest x y q hra htake hx hk hs hstep
  rw [exec_edgeDelivery hra htake, edgeToGroup_of_live_input (s := s.setEdges rest) hx hs hk, edgeInput]
  have hhold : advanceHold g x n ep (s.setEdges rest) = (y, { s with edges := rest, events := q }) := by
    obtain ⟨hfree, hheld⟩ := hstep
    by_cases hh : x.held = true
    · obtain ⟨hbelow, hlimit⟩ := hheld hh (satSucc8 x.holdCount) (satSucc8_eq _)
      by_cases hl : x.record.holdLimit = 0 ∨ satSucc8 x.holdCount ≠ x.record.holdLimit
      · obtain ⟨rfl, rfl⟩ := hbelow hl
        rw [advanceHold_of_below n ep _ hh hl]
        rfl
      · obtain ⟨h0, hc⟩ := not_or.mp hl
        obtain ⟨rfl, hpending, hother⟩ := hlimit h0 (Decidable.not_not.mp hc)
        rw [advanceHold_of_limit n ep _ hh h0 (Decidable.not_not.mp hc), ← detail_toNat]
        congr 1
        rcases hb : x.back with - | ws | b
        · rw [hother (by simp [hb])]; simp only [Group.swapPending, hb]
        · rw [hother (by simp [hb])]; simp only [Group.swapPending, hb]
        · rw [hpending b hb]; simp only [Group.swapPending]
    · obtain ⟨rfl, rfl⟩ := hfree (by simpa using hh)
      rw [advanceHold_of_free n ep _ (by simpa using hh)]
      rfl
  have hcap : y.captureInFlight = x.captureInFlight := by
    have h := advanceHold_captureInFlight g x n ep (s.setEdges rest)
    rwa [hhold] at h
  rw [hhold, captureAtEdge, hcap]
  refine ⟨fun hc => ?_, fun hc => ?_⟩
  · rw [if_pos hc]; rfl
  · rw [if_neg (by simp [hc])]; rfl

end Sys2Proof.Machine
end

section
/-! SUPPORT. The engine's rounds at the end of a step: how many it can need, and that it has enough of them (R103). -/

namespace Sys2Proof.Machine

open Sys2Proof.Safety

/-- The rounds a job in the queue can need: its dispatch and the end of each phase, twice for a job with release pairs. -/
def Job.rounds (j : Job) : Nat := if j.phase = .release then 4 else 2

/-- The SAFE job that a completion can create for the group. -/
def Group.owedSafe (x : Group) : Nat := if x.pendingSafe then 1 else 0

/-- The rounds the engine can still need: those of its jobs, and those of the SAFE jobs that completions can create. -/
def State.roundsLeft (s : State) : Nat :=
  (s.engine.queue.map Job.rounds).sum + s.engine.running.elim 0 (fun j => j.rounds - 1) + 4 * s.total Group.owedSafe

theorem Job.rounds_bounds (j : Job) : 2 ≤ j.rounds ∧ j.rounds ≤ 4 := by
  unfold Job.rounds
  split <;> omega

theorem list_sum_map_le {α : Type} (f : α → Nat) (b : Nat) (h : ∀ a, f a ≤ b) : ∀ l : List α, (l.map f).sum ≤ b * l.length
  | [] => Nat.zero_le _
  | a :: l => by
    have := list_sum_map_le f b h l
    have := h a
    simp only [List.map_cons, List.sum_cons, List.length_cons, Nat.mul_add]
    omega

theorem total_owedSafe_le (s : State) : s.total Group.owedSafe ≤ 32 := by
  refine (list_sum_map_le _ 1 (fun o => ?_) _).trans (by simp)
  cases o with
  | none => exact Nat.zero_le _
  | some x =>
    show x.owedSafe ≤ 1
    unfold Group.owedSafe
    split <;> omega

/-- The engine is given as many rounds as it can need, and more. -/
theorem roundsLeft_le_pumpRounds (s : State) : s.roundsLeft ≤ s.pumpRounds := by
  have hq := list_sum_map_le Job.rounds 4 (fun j => j.rounds_bounds.2) s.engine.queue
  have hg := total_owedSafe_le s
  have hr : s.engine.running.elim 0 (fun j => j.rounds - 1) ≤ 3 := by
    cases s.engine.running with
    | none => exact Nat.zero_le _
    | some j =>
      have := j.rounds_bounds
      show j.rounds - 1 ≤ 3
      omega
  unfold State.roundsLeft State.pumpRounds
  omega

theorem total_of_setGroup {f : Group → Nat} {s : State} {g : GroupNo} {x y : Group} (hx : s.group g = some x) (h : f y = f x) :
    (s.setGroup g y).total f = s.total f := by
  have ht := total_of_groups_set (f := f) (s := s) (t := s.setGroup g y) rfl
  rw [hx] at ht
  simp only [Option.elim_some] at ht
  omega

theorem roundsLeft_congr {s t : State} (he : t.engine = s.engine) (hg : t.total Group.owedSafe = s.total Group.owedSafe) :
    t.roundsLeft = s.roundsLeft := by
  rw [State.roundsLeft, State.roundsLeft, he, hg]

theorem roundsLeft_setEngine (s : State) (e : Engine) : (s.setEngine e).roundsLeft =
    (e.queue.map Job.rounds).sum + e.running.elim 0 (fun j => j.rounds - 1) + 4 * s.total Group.owedSafe := rfl

/-- The start of a capture costs no round. -/
theorem roundsLeft_captureStart (g : GroupNo) (s : State) : (captureStart g s).roundsLeft = s.roundsLeft := by
  unfold captureStart
  rcases State.onInput_cases g s (fun x => s.setGroup g { x with back := .filling [] }) with h | ⟨x, hx, -, h⟩ <;> rw [h]
  exact roundsLeft_congr rfl (total_of_setGroup hx rfl)

/-- A dispatch takes one round. -/
theorem roundsLeft_dispatch {s : State} {j : Job} {rest : List Job} (hr : s.engine.running = none)
    (hq : s.engine.queue = j :: rest) : (dispatch j rest s).roundsLeft < s.roundsLeft := by
  have hentered : (s.setEngine { s.engine with queue := rest, running := some j }).roundsLeft < s.roundsLeft := by
    have := j.rounds_bounds
    rw [roundsLeft_setEngine, State.roundsLeft, hr, hq]
    simp only [Option.elim_some, Option.elim_none, List.map_cons, List.sum_cons]
    omega
  unfold dispatch
  cases j.kind
  · exact hentered
  · exact hentered
  · simpa only [roundsLeft_captureStart] using hentered

/-- A job in the queue brings its rounds. -/
theorem roundsLeft_appendJob (j : Job) (s : State) : (s.appendJob j).roundsLeft = s.roundsLeft + j.rounds := by
  rw [State.appendJob, roundsLeft_setEngine, State.roundsLeft]
  simp only [List.map_append, List.sum_append, List.map_cons, List.map_nil, List.sum_cons, List.sum_nil]
  omega

/-- The creation of a pending SAFE job costs no more rounds than were counted for it. -/
theorem roundsLeft_createSafe {g : GroupNo} {x y : Group} {s : State} (hx : s.group g = some x) (hp : x.pendingSafe = true)
    (epoch : BitVec 32) : (createSafe g y epoch s).roundsLeft ≤ s.roundsLeft := by
  have ht := total_of_groups_set (f := Group.owedSafe) (s := s)
    (t := s.setGroup g { y with committing := some .safe, pendingSafe := false }) rfl
  have hone : x.owedSafe = 1 := if_pos hp
  have hzero : Group.owedSafe { y with committing := some .safe, pendingSafe := false } = 0 := rfl
  have hb := (newImageJob .safe g y epoch s).rounds_bounds
  rw [hx, Option.elim_some, Option.elim_some, hone, hzero] at ht
  rw [createSafe, roundsLeft_appendJob, State.roundsLeft, State.roundsLeft, State.setGroup_engine]
  omega

/-- The completion of an image job costs no more rounds than it was counted with, for the SAFE job it can create. -/
theorem roundsLeft_completeImageJob (j : Job) (s : State) : (completeImageJob j s).roundsLeft ≤ s.roundsLeft := by
  rcases completeImageJob_cases j s with h | ⟨x, y, t, hx, -, rfl, rfl, ⟨-, h⟩ | ⟨-, hp, h⟩ | ⟨-, h⟩⟩ <;> rw [h]
  · refine le_of_eq (roundsLeft_congr rfl ?_)
    exact total_of_setGroup (s := s.returnStage _) hx rfl
  · exact roundsLeft_createSafe (s := s.returnStage _) hx hp _
  · exact le_of_eq (roundsLeft_congr rfl (total_of_setGroup (s := s.returnStage _) hx rfl))

theorem roundsLeft_completeCapture (j : Job) (s : State) : (completeCapture j s).roundsLeft = s.roundsLeft := by
  rcases completeCapture_cases j s with h | ⟨x, hx, -, ⟨-, h⟩ | ⟨-, f, b, h⟩⟩ <;> rw [h]
  · exact roundsLeft_congr rfl (total_of_setGroup (s := s) hx rfl)
  · exact roundsLeft_congr rfl (total_of_setGroup hx rfl)

theorem roundsLeft_raise (s : State) (e : EventRecord) : (s.raise e).roundsLeft = s.roundsLeft := rfl

/-- The running job leaves its position. -/
theorem roundsLeft_setRunning_none {s : State} {j : Job} (hr : s.engine.running = some j) :
    (s.setRunning none).roundsLeft + (j.rounds - 1) = s.roundsLeft := by
  rw [State.setRunning, roundsLeft_setEngine, State.roundsLeft, hr]
  simp only [Option.elim_some, Option.elim_none]
  omega

/-- The end of a phase takes one round. -/
theorem roundsLeft_endPhase {s : State} {j : Job} (hr : s.engine.running = some j) : (endPhase j s).roundsLeft < s.roundsLeft := by
  have hleft := roundsLeft_setRunning_none hr
  have hb := j.rounds_bounds
  have hclose : (closeJob j s).roundsLeft < s.roundsLeft := by
    unfold closeJob
    refine lt_of_le_of_lt (roundsLeft_completeImageJob _ _) ?_
    split
    · rw [roundsLeft_raise]; omega
    · omega
  unfold endPhase
  rcases hp : j.phase <;> simp only
  case release =>
    have hj : j.rounds = 4 := if_pos hp
    have hk : Job.rounds { j with phase := .engage, progress := 0 } = 2 := rfl
    unfold endRelease
    simp only
    split
    · rw [roundsLeft_appendJob, hk]; omega
    · show (s.setRunning none).roundsLeft < _
      omega
  case plain => exact hclose
  case engage => exact hclose
  case capture => rw [roundsLeft_completeCapture]; omega

/-! ### The rounds of the engine, one by one -/

/-- The engine has come to a stop: nothing is left in its queue, or its running job asks for the port. -/
def State.Stalled (s : State) : Prop :=
  (s.engine.running = none ∧ s.engine.queue = []) ∨
  ∃ j u, s.engine.running = some j ∧ (s.group j.group).bind (nextRequest j) = some u

theorem pumpEngine_dispatch {s : State} {j : Job} {rest : List Job} (n : Nat) (hr : s.engine.running = none)
    (hq : s.engine.queue = j :: rest) : pumpEngine (n + 1) s = pumpEngine n (dispatch j rest s) := by
  simp only [pumpEngine, hr, hq]

theorem pumpEngine_endPhase {s : State} {j : Job} (n : Nat) (hr : s.engine.running = some j)
    (hn : (s.group j.group).bind (nextRequest j) = none) : pumpEngine (n + 1) s = pumpEngine n (endPhase j s) := by
  simp only [pumpEngine, hr, hn]

theorem pumpEngine_stalled {s : State} (n : Nat) (h : s.Stalled) : pumpEngine n s = s := by
  cases n with
  | zero => rfl
  | succ n =>
    rcases h with ⟨hr, hq⟩ | ⟨j, u, hr, hu⟩
    · simp only [pumpEngine, hr, hq]
    · simp only [pumpEngine, hr, hu]

/-- The engine has stopped, dispatches the head of its queue, or ends a phase of its running job. -/
theorem engine_cases (s : State) :
    s.Stalled ∨ (∃ j rest, s.engine.running = none ∧ s.engine.queue = j :: rest) ∨
    ∃ j, s.engine.running = some j ∧ (s.group j.group).bind (nextRequest j) = none := by
  rcases hr : s.engine.running with - | j
  · rcases hq : s.engine.queue with - | ⟨j, rest⟩
    · exact .inl (.inl ⟨hr, hq⟩)
    · exact .inr (.inl ⟨j, rest, rfl, rfl⟩)
  · rcases hn : (s.group j.group).bind (nextRequest j) with - | u
    · exact .inr (.inr ⟨j, rfl, hn⟩)
    · exact .inl (.inr ⟨j, u, hr, hn⟩)

/-- With rounds enough the engine comes to a stop, and further rounds change nothing. -/
theorem pumpEngine_enough : ∀ (n k : Nat) (s : State), s.roundsLeft ≤ n →
    (pumpEngine n s).Stalled ∧ pumpEngine (n + k) s = pumpEngine n s := by
  intro n
  induction n with
  | zero =>
    intro k s h
    have hstop : s.Stalled := by
      rcases engine_cases s with hs | ⟨j, rest, hr, hq⟩ | ⟨j, hr, -⟩
      · exact hs
      · have := roundsLeft_dispatch hr hq; omega
      · have := roundsLeft_endPhase hr; omega
    exact ⟨hstop, pumpEngine_stalled _ hstop⟩
  | succ n ih =>
    intro k s h
    rw [Nat.add_right_comm]
    rcases engine_cases s with hs | ⟨j, rest, hr, hq⟩ | ⟨j, hr, hn⟩
    · rw [pumpEngine_stalled _ hs, pumpEngine_stalled _ hs]
      exact ⟨hs, rfl⟩
    · rw [pumpEngine_dispatch _ hr hq, pumpEngine_dispatch _ hr hq]
      have := roundsLeft_dispatch hr hq
      exact ih k _ (by omega)
    · rw [pumpEngine_endPhase _ hr hn, pumpEngine_endPhase _ hr hn]
      have := roundsLeft_endPhase hr
      exact ih k _ (by omega)

theorem pumpEngine_rounds {n m : Nat} {s : State} (hn : s.roundsLeft ≤ n) (hm : s.roundsLeft ≤ m) :
    pumpEngine n s = pumpEngine m s := by
  rw [← Nat.add_sub_cancel' hn, ← Nat.add_sub_cancel' hm, (pumpEngine_enough _ _ s le_rfl).2, (pumpEngine_enough _ _ s le_rfl).2]

/-- The engine after it has gone on. -/
def State.pumped (s : State) : State := pumpEngine s.pumpRounds s

theorem pumped_stalled (s : State) : s.pumped.Stalled := (pumpEngine_enough _ 0 s (roundsLeft_le_pumpRounds s)).1

theorem pumped_of_stalled {s : State} (h : s.Stalled) : s.pumped = s := pumpEngine_stalled _ h

theorem pumped_dispatch {s : State} {j : Job} {rest : List Job} (hr : s.engine.running = none)
    (hq : s.engine.queue = j :: rest) : s.pumped = (dispatch j rest s).pumped := by
  have hs := roundsLeft_le_pumpRounds s
  have hd := roundsLeft_dispatch hr hq
  rw [State.pumped, pumpEngine_rounds hs (Nat.le_succ_of_le hs), pumpEngine_dispatch _ hr hq]
  exact pumpEngine_rounds (by omega) (roundsLeft_le_pumpRounds _)

theorem pumped_endPhase {s : State} {j : Job} (hr : s.engine.running = some j)
    (hn : (s.group j.group).bind (nextRequest j) = none) : s.pumped = (endPhase j s).pumped := by
  have hs := roundsLeft_le_pumpRounds s
  have hd := roundsLeft_endPhase hr
  rw [State.pumped, pumpEngine_rounds hs (Nat.le_succ_of_le hs), pumpEngine_endPhase _ hr hn]
  exact pumpEngine_rounds (by omega) (roundsLeft_le_pumpRounds _)

/-! ### The end of a step, while the engine may go on -/

theorem settle_of_free {s : State} (hb : s.engineBusy = false) (hr : s.resetting = none) :
    settle s = arbitrate (joinHost s.pumped) := by
  rw [settle, hb, hr]
  rfl

@[simp] theorem completeImageJob_resetting (j : Job) (s : State) : (completeImageJob j s).resetting = s.resetting := by
  rcases completeImageJob_cases j s with e | ⟨x, y, t, -, -, -, rfl, ⟨-, e⟩ | ⟨-, -, e⟩ | ⟨-, e⟩⟩ <;> rw [e] <;> rfl

@[simp] theorem completeCapture_resetting (j : Job) (s : State) : (completeCapture j s).resetting = s.resetting := by
  rcases completeCapture_cases j s with e | ⟨x, -, -, ⟨-, e⟩ | ⟨-, f, b, e⟩⟩ <;> rw [e] <;> rfl

@[simp] theorem dispatch_resetting (j : Job) (rest : List Job) (s : State) : (dispatch j rest s).resetting = s.resetting := by
  unfold dispatch captureStart
  rcases j.kind
  · rfl
  · rfl
  · simp only
    rcases State.onInput_cases j.group (s.setEngine { s.engine with queue := rest, running := some j })
      (fun x => (s.setEngine { s.engine with queue := rest, running := some j }).setGroup j.group { x with back := .filling [] }) with
      e | ⟨x, -, -, e⟩ <;> rw [e] <;> rfl

@[simp] theorem endPhase_resetting (j : Job) (s : State) : (endPhase j s).resetting = s.resetting := by
  unfold endPhase closeJob endRelease
  split
  · simp only
    split <;> rfl
  · rw [completeImageJob_resetting]
    split <;> rfl
  · rw [completeImageJob_resetting]
    split <;> rfl
  · exact completeCapture_resetting _ _

theorem engineBusy_of_port {s t : State} (h : t.port = s.port) : t.engineBusy = s.engineBusy := by
  rw [State.engineBusy, State.engineBusy, h]

/-- The head of the queue is dispatched at the end of the step (R103). -/
theorem settle_dispatch {s : State} {j : Job} {rest : List Job} (hb : s.engineBusy = false) (hrs : s.resetting = none)
    (hr : s.engine.running = none) (hq : s.engine.queue = j :: rest) : settle s = settle (dispatch j rest s) := by
  rw [settle_of_free hb hrs, pumped_dispatch hr hq,
    settle_of_free (s := dispatch j rest s) ((engineBusy_of_port (dispatch_port j rest s)).trans hb) (by rw [dispatch_resetting, hrs])]

/-- A running job with no request left ends its phase at the end of the step (R108, R111, R116). -/
theorem settle_endPhase {s : State} {j : Job} (hb : s.engineBusy = false) (hrs : s.resetting = none)
    (hr : s.engine.running = some j) (hn : (s.group j.group).bind (nextRequest j) = none) : settle s = settle (endPhase j s) := by
  rw [settle_of_free hb hrs, pumped_endPhase hr hn,
    settle_of_free (s := endPhase j s) ((engineBusy_of_port (endPhase_port j s)).trans hb) (by rw [endPhase_resetting, hrs])]

end Sys2Proof.Machine
end

section
/-! SUPPORT. What the engine's going on changes in a state, as one relation that holds of every round and of the whole (R103). -/

namespace Sys2Proof.Machine

open Sys2Proof.Safety

/-- What the engine can make of a group: it may end its draining, and it changes what its jobs and banks hold, nothing else. -/
def Group.Served (x y : Group) : Prop :=
  (y.state = x.state ∨ x.state = .draining ∧ y.state = .disabled) ∧
  y = { x with state := y.state, committing := y.committing, pendingSafe := y.pendingSafe, seqCount := y.seqCount,
               front := y.front, back := y.back, captureInFlight := y.captureInFlight, held := y.held }

theorem Group.Served.refl (x : Group) : x.Served x := ⟨.inl rfl, rfl⟩

theorem Group.Served.trans {x y z : Group} (h : x.Served y) (h' : y.Served z) : x.Served z := by
  obtain ⟨hs, hy⟩ := h
  obtain ⟨hs', hz⟩ := h'
  refine ⟨?_, by rw [hz, hy]⟩
  rcases hs' with hs' | ⟨hd, hd'⟩
  · rw [hs']; exact hs
  · have hlive : y.state = x.state := hs.resolve_right fun h => by rw [h.2] at hd; cases hd
    exact .inr ⟨hlive ▸ hd, hd'⟩

/-- The groups with a job that runs or waits in the queue. -/
def State.served (s : State) : List GroupNo := (s.engine.running.toList ++ s.engine.queue).map Job.group

/-- The offers to the groups that a condition names become void (R79). -/
def voidWhere (p : GroupNo → Bool) (es : List Edge) : List Edge :=
  es.map (fun e => { e with groups := e.groups.map (fun o => if p o.group then ⟨o.group, true⟩ else o) })

theorem voidWhere_false (es : List Edge) : voidWhere (fun _ => false) es = es := by
  simp [voidWhere]

theorem voidWhere_voidWhere (p q : GroupNo → Bool) (es : List Edge) :
    voidWhere q (voidWhere p es) = voidWhere (fun g => p g || q g) es := by
  simp only [voidWhere, List.map_map]
  congr 1
  funext e
  simp only [Function.comp_apply, List.map_map]
  congr 2
  funext o
  by_cases hp : p o.group = true <;> by_cases hq : q o.group = true <;> simp [hp, hq]

/-- The state of a slot's group is another one afterwards. -/
def stateMoved (s t : State) (g : GroupNo) : Bool := decide ((s.group g).map Group.state ≠ (t.group g).map Group.state)

/-- What the engine's going on leaves of the state. -/
structure Goes (s t : State) : Prop where
  absent : ∀ g, s.group g = none → t.group g = none
  group : ∀ g x, s.group g = some x → ∃ y, t.group g = some y ∧ x.Served y
  others : ∀ g, g ∉ s.served → t.group g = s.group g
  served : ∀ g, g ∈ t.served → g ∈ s.served
  edges : t.edges = voidWhere (stateMoved s t) s.edges
  resetAsserted : t.resetAsserted = s.resetAsserted
  freeSafe : t.freeSafe = s.freeSafe
  sources : t.sources = s.sources
  link : t.link = s.link
  resetting : t.resetting = s.resetting
  pending : t.pending = s.pending

theorem stateMoved_self {s t : State} (h : ∀ g, t.group g = s.group g) : stateMoved s t = fun _ => false := by
  funext g
  simp [stateMoved, h]

/-- A round that changes no group. -/
theorem Goes.quiet {s t : State} (hg : t.groups = s.groups) (hj : ∀ g, g ∈ t.served → g ∈ s.served) (he : t.edges = s.edges)
    (h1 : t.resetAsserted = s.resetAsserted) (h2 : t.freeSafe = s.freeSafe) (h3 : t.sources = s.sources) (h4 : t.link = s.link)
    (h5 : t.resetting = s.resetting) (h6 : t.pending = s.pending) : Goes s t := by
  have hgroup : ∀ g, t.group g = s.group g := fun g => by rw [State.group, State.group, hg]
  refine ⟨fun g h => by rw [hgroup, h], fun g x hx => ⟨x, by rw [hgroup, hx], .refl x⟩, fun g _ => hgroup g, hj, ?_, h1, h2, h3, h4,
    h5, h6⟩
  rw [stateMoved_self hgroup, voidWhere_false, he]

theorem Goes.refl (s : State) : Goes s s := .quiet rfl (fun _ h => h) rfl rfl rfl rfl rfl rfl rfl

theorem Goes.trans {s t u : State} (h : Goes s t) (h' : Goes t u) : Goes s u where
  absent g hg := h'.absent g (h.absent g hg)
  group g x hx := by
    obtain ⟨y, hy, hxy⟩ := h.group g x hx
    obtain ⟨z, hz, hyz⟩ := h'.group g y hy
    exact ⟨z, hz, hxy.trans hyz⟩
  others g hg := (h'.others g fun hn => hg (h.served g hn)).trans (h.others g hg)
  served g hg := h.served g (h'.served g hg)
  edges := by
    rw [h'.edges, h.edges, voidWhere_voidWhere]
    congr 1
    funext g
    rcases hx : s.group g with - | x
    · have ht := h.absent g hx
      simp [stateMoved, hx, ht, h'.absent g ht]
    · obtain ⟨y, hy, hs, -⟩ := h.group g x hx
      obtain ⟨z, hz, hs', -⟩ := h'.group g y hy
      simp only [stateMoved, hx, hy, hz, Option.map_some, ne_eq, Option.some.injEq]
      rcases hs with hs | ⟨hs, hd⟩ <;> rcases hs' with hs' | ⟨hs', hd'⟩
      · simp [hs, hs']
      · simp [← hs, hs', hd']
      · simp [hs, hd, hs']
      · rw [hd] at hs'; cases hs'
  resetAsserted := h'.resetAsserted.trans h.resetAsserted
  freeSafe := h'.freeSafe.trans h.freeSafe
  sources := h'.sources.trans h.sources
  link := h'.link.trans h.link
  resetting := h'.resetting.trans h.resetting
  pending := h'.pending.trans h.pending

/-- A round that changes the group of one job, and makes its offers void exactly when the group becomes DISABLED. -/
theorem Goes.write {s t : State} {g : GroupNo} {x y : Group} (hx : s.group g = some x) (hserved : g ∈ s.served)
    (hxy : x.Served y) (hg : t.groups = s.groups.set g (some y)) (hj : ∀ g, g ∈ t.served → g ∈ s.served)
    (he : t.edges = if y.state = x.state then s.edges else s.edges.map (Edge.voidGroup g))
    (h1 : t.resetAsserted = s.resetAsserted) (h2 : t.freeSafe = s.freeSafe) (h3 : t.sources = s.sources) (h4 : t.link = s.link)
    (h5 : t.resetting = s.resetting) (h6 : t.pending = s.pending) : Goes s t := by
  have hgroup : ∀ k, t.group k = if g = k then some y else s.group k := fun k => by
    rw [State.group, hg]; exact State.group_setGroup s g k y
  refine ⟨fun k hk => ?_, fun k z hz => ?_, fun k hk => ?_, hj, ?_, h1, h2, h3, h4, h5, h6⟩
  · rw [hgroup, if_neg]
    · exact hk
    · rintro rfl; rw [hx] at hk; cases hk
  · by_cases hk : g = k
    · subst hk
      rw [hx] at hz; cases hz
      exact ⟨y, by rw [hgroup, if_pos rfl], hxy⟩
    · exact ⟨z, by rw [hgroup, if_neg hk, hz], .refl z⟩
  · rw [hgroup, if_neg]
    rintro rfl; exact hk hserved
  · have hmoved : stateMoved s t = fun k => decide (g = k ∧ y.state ≠ x.state) := by
      funext k
      simp only [stateMoved, hgroup]
      by_cases hk : g = k
      · subst hk; simp [hx, eq_comm]
      · simp [hk]
    rw [he, hmoved]
    by_cases hs : y.state = x.state
    · simp [hs, voidWhere_false]
    · rw [if_neg hs]
      simp only [hs, ne_eq, not_false_eq_true, and_true, voidWhere, decide_eq_true_eq]
      congr 1
      funext e
      simp only [Edge.voidGroup]
      congr 2
      funext o
      by_cases ho : o.group = g
      · simp [ho]
      · simp [ho, Ne.symm ho]

/-! ### The rounds -/

theorem mem_served {s : State} {g : GroupNo} : g ∈ s.served ↔ ∃ j ∈ s.engine.running.toList ++ s.engine.queue, j.group = g := by
  simp only [State.served, List.mem_map]

theorem served_appendJob (j : Job) (s : State) : (s.appendJob j).served = s.served ++ [j.group] := by
  simp [State.served, State.appendJob]

theorem Goes.captureStart {s : State} {g : GroupNo} (hg : g ∈ s.served) : Goes s (captureStart g s) := by
  unfold Machine.captureStart
  rcases State.onInput_cases g s (fun x => s.setGroup g { x with back := .filling [] }) with e | ⟨x, hx, -, e⟩ <;> rw [e]
  · exact .refl s
  · exact .write (y := { x with back := .filling [] }) hx hg ⟨.inl rfl, rfl⟩ rfl (fun _ h => h) (if_pos rfl).symm rfl rfl rfl rfl
      rfl rfl

theorem Goes.dispatch {s : State} {j : Job} {rest : List Job} (hr : s.engine.running = none) (hq : s.engine.queue = j :: rest) :
    Goes s (dispatch j rest s) := by
  have hentered : Goes s (s.setEngine { s.engine with queue := rest, running := some j }) :=
    .quiet rfl (fun g h => by simpa [State.served, hr, hq] using h) rfl rfl rfl rfl rfl rfl rfl
  unfold Machine.dispatch
  cases j.kind
  · exact hentered
  · exact hentered
  · exact hentered.trans (.captureStart (by simp [State.served]))

/-- The running job leaves, with an event at most. -/
theorem Goes.leave {s t : State} (hg : t.groups = s.groups) (hq : t.engine.queue = s.engine.queue) (hr : t.engine.running = none)
    (he : t.edges = s.edges) (h1 : t.resetAsserted = s.resetAsserted) (h2 : t.freeSafe = s.freeSafe) (h3 : t.sources = s.sources)
    (h4 : t.link = s.link) (h5 : t.resetting = s.resetting) (h6 : t.pending = s.pending) : Goes s t :=
  .quiet hg (fun g h => by
    simp only [State.served, hr, hq, Option.toList_none, List.nil_append, List.map_append, List.mem_append] at h ⊢
    exact .inr h) he h1 h2 h3 h4 h5 h6

/-- The completion of an image job of a group that is still counted as served. -/
theorem completeImageJob_goes {s u : State} {j : Job} (hu : Goes s u) (hug : u.groups = s.groups) (hue : u.edges = s.edges)
    (hserved : j.group ∈ s.served) : Goes s (completeImageJob j u) := by
  have hgroup : u.group j.group = s.group j.group := by rw [State.group, State.group, hug]
  rcases completeImageJob_cases j u with e | ⟨x, y, t, hx, -, rfl, rfl, ⟨hs, e⟩ | ⟨hs, hp, e⟩ | ⟨hs, e⟩⟩ <;> rw [e]
  · exact hu
  all_goals rw [hgroup] at hx
  · refine .write (y := { x with seqCount := j.count, committing := none, state := .disabled }) hx hserved ⟨.inr ⟨hs, rfl⟩, rfl⟩
      (by rw [← hug]; rfl) hu.served ?_ hu.resetAsserted hu.freeSafe hu.sources hu.link
      hu.resetting hu.pending
    rw [if_neg (by simp [hs]), ← hue]
    rfl
  · refine .write (y := { x with seqCount := j.count, committing := some .safe, pendingSafe := false }) hx hserved ⟨.inl rfl, rfl⟩
      (by rw [← hug]; rfl) (fun g hg => ?_) ((if_pos rfl).trans hue.symm).symm hu.resetAsserted hu.freeSafe hu.sources hu.link
      hu.resetting hu.pending
    rw [createSafe, served_appendJob, List.mem_append] at hg
    rcases hg with hg | hg
    · exact hu.served g hg
    · rw [List.mem_singleton.mp hg]; exact hserved
  · exact .write (y := { x with seqCount := j.count, committing := none }) hx hserved ⟨.inl rfl, rfl⟩ (by rw [← hug]; rfl) hu.served
      ((if_pos rfl).trans hue.symm).symm hu.resetAsserted hu.freeSafe hu.sources hu.link hu.resetting hu.pending

/-- The end of a capture of a group that is still counted as served. -/
theorem completeCapture_goes {s u : State} {j : Job} (hu : Goes s u) (hug : u.groups = s.groups) (hue : u.edges = s.edges)
    (hserved : j.group ∈ s.served) : Goes s (completeCapture j u) := by
  have hgroup : u.group j.group = s.group j.group := by rw [State.group, State.group, hug]
  rcases completeCapture_cases j u with e | ⟨x, hx, -, ⟨hs, e⟩ | ⟨hs, f, b, e⟩⟩ <;> rw [e]
  · exact hu
  all_goals rw [hgroup] at hx
  · refine .write (y := { x with front := none, back := .idle, held := false, captureInFlight := false, state := .disabled }) hx
      hserved ⟨.inr ⟨hs, rfl⟩, rfl⟩ (by rw [← hug]; rfl) hu.served ?_ hu.resetAsserted hu.freeSafe hu.sources hu.link hu.resetting
      hu.pending
    rw [if_neg (by simp [hs]), ← hue]
    rfl
  · exact .write (y := { x with captureInFlight := false, front := f, back := b }) hx hserved ⟨.inl rfl, rfl⟩ (by rw [← hug]; rfl)
      hu.served ((if_pos rfl).trans hue.symm).symm hu.resetAsserted hu.freeSafe hu.sources hu.link hu.resetting hu.pending

theorem Goes.closeJob {s : State} {j : Job} (hr : s.engine.running = some j) : Goes s (closeJob j s) := by
  have hserved : j.group ∈ s.served := by simp [State.served, hr]
  unfold Machine.closeJob
  refine completeImageJob_goes ?_ ?_ ?_ hserved
  · split <;> exact .leave rfl rfl rfl rfl rfl rfl rfl rfl rfl rfl
  · split <;> rfl
  · split <;> rfl

theorem Goes.endPhase {s : State} {j : Job} (hr : s.engine.running = some j) : Goes s (endPhase j s) := by
  have hserved : j.group ∈ s.served := by simp [State.served, hr]
  unfold Machine.endPhase
  rcases j.phase <;> simp only
  case plain => exact .closeJob hr
  case engage => exact .closeJob hr
  case capture => exact completeCapture_goes (.leave rfl rfl rfl rfl rfl rfl rfl rfl rfl rfl) rfl rfl hserved
  case release =>
    unfold endRelease
    simp only
    split
    · refine .quiet rfl (fun g hg => ?_) rfl rfl rfl rfl rfl rfl rfl
      rw [served_appendJob, List.mem_append] at hg
      rcases hg with hg | hg
      · simp only [State.served, State.setRunning, State.setEngine_engine, Option.toList_none, List.nil_append, List.map_append,
          List.mem_append] at hg ⊢
        exact .inr hg
      · rw [List.mem_singleton.mp hg]; exact hserved
    · exact .leave rfl rfl rfl rfl rfl rfl rfl rfl rfl rfl

theorem Goes.pumped (s : State) : Goes s s.pumped :=
  pumpEngine_induct (P := Goes s) (fun _ _ _ h hr hq => h.trans (.dispatch hr hq)) (fun _ _ h hr _ => h.trans (.endPhase hr)) _ _
    (.refl s)

/-! ### What the rounds leave of the port and the host path -/

@[simp] theorem completeImageJob_host (j : Job) (s : State) :
    (completeImageJob j s).host = s.host ∧ (completeImageJob j s).streak = s.streak := by
  rcases completeImageJob_cases j s with e | ⟨x, y, t, -, -, -, rfl, ⟨-, e⟩ | ⟨-, -, e⟩ | ⟨-, e⟩⟩ <;> rw [e] <;> exact ⟨rfl, rfl⟩

@[simp] theorem completeCapture_host (j : Job) (s : State) :
    (completeCapture j s).host = s.host ∧ (completeCapture j s).streak = s.streak := by
  rcases completeCapture_cases j s with e | ⟨x, -, -, ⟨-, e⟩ | ⟨-, f, b, e⟩⟩ <;> rw [e] <;> exact ⟨rfl, rfl⟩

theorem dispatch_host (j : Job) (rest : List Job) (s : State) :
    (dispatch j rest s).host = s.host ∧ (dispatch j rest s).streak = s.streak := by
  unfold dispatch captureStart
  rcases j.kind
  · exact ⟨rfl, rfl⟩
  · exact ⟨rfl, rfl⟩
  · simp only
    rcases State.onInput_cases j.group (s.setEngine { s.engine with queue := rest, running := some j })
      (fun x => (s.setEngine { s.engine with queue := rest, running := some j }).setGroup j.group { x with back := .filling [] }) with
      e | ⟨x, -, -, e⟩ <;> rw [e] <;> exact ⟨rfl, rfl⟩

theorem endPhase_host (j : Job) (s : State) : (endPhase j s).host = s.host ∧ (endPhase j s).streak = s.streak := by
  have hclose : (closeJob j s).host = s.host ∧ (closeJob j s).streak = s.streak := by
    unfold closeJob
    simp only [completeImageJob_host]
    split <;> exact ⟨rfl, rfl⟩
  unfold endPhase endRelease
  rcases j.phase <;> simp only
  case release => split <;> exact ⟨rfl, rfl⟩
  case plain => exact hclose
  case engage => exact hclose
  case capture => exact completeCapture_host j _

/-- The engine's going on touches neither the port nor the host path nor the streak. -/
theorem pumped_port (s : State) : s.pumped.port = s.port ∧ s.pumped.host = s.host ∧ s.pumped.streak = s.streak := by
  refine pumpEngine_induct (P := fun t => t.port = s.port ∧ t.host = s.host ∧ t.streak = s.streak) ?_ ?_ _ _ ⟨rfl, rfl, rfl⟩
  · rintro t j rest ⟨hp, hh, hs⟩ - -
    obtain ⟨h1, h2⟩ := dispatch_host j rest t
    exact ⟨(dispatch_port j rest t).trans hp, h1.trans hh, h2.trans hs⟩
  · rintro t j ⟨hp, hh, hs⟩ - -
    obtain ⟨h1, h2⟩ := endPhase_host j t
    exact ⟨(endPhase_port j t).trans hp, h1.trans hh, h2.trans hs⟩

end Sys2Proof.Machine
end

section
/-! SUPPORT. The grant at the end of a step, case by case (R118), and what the whole end of a step leaves alone. -/

namespace Sys2Proof.Machine

open Sys2Proof.Safety

theorem arbitrate_of_taken {s : State} (h : s.port ≠ none) : arbitrate s = s := by
  unfold arbitrate
  cases hp : s.port with
  | none => exact absurd hp h
  | some u => rfl

theorem arbitrate_of_quiet {s : State} (he : s.engineAsk = none) (hh : s.hostAsk = none) : arbitrate s = s := by
  unfold arbitrate
  cases s.port
  · simp only [he, hh]
  · rfl

theorem arbitrate_of_engine {s : State} {u : PortUse} (hp : s.port = none) (he : s.engineAsk = some u) (hh : s.hostAsk = none) :
    arbitrate s = grantEngine u 0 s := by
  simp only [arbitrate, hp, he, hh]

/-- Both ask, and the engine has been preferred fewer than eight times in a row. -/
theorem arbitrate_of_both {s : State} {u v : PortUse} (hp : s.port = none) (he : s.engineAsk = some u) (hh : s.hostAsk = some v)
    (hs : s.streak < 8) : arbitrate s = grantEngine u (s.streak + 1) s := by
  simp only [arbitrate, hp, he, hh]
  exact if_pos hs

theorem arbitrate_of_host {s : State} {v : PortUse} (hp : s.port = none) (hh : s.hostAsk = some v)
    (he : s.engineAsk = none ∨ s.streak = 8) : arbitrate s = grantHost v s := by
  rcases ha : s.engineAsk with - | u
  · simp only [arbitrate, hp, ha, hh]
  · have hs : s.streak = 8 := he.resolve_left (by simp [ha])
    simp only [arbitrate, hp, ha, hh]
    exact if_neg (by rw [hs]; decide)

/-- A grant to the engine, and the note it leaves in the running job (log 19). -/
theorem grantEngine_engine (u : PortUse) (n : Nat) (s : State) : (grantEngine u n s).engine = { s.engine with
    running := s.engine.running.map (fun j =>
      if u.purpose = .opening then { j with writingIssued := true }
      else if u.purpose = .closing then { j with closingIssued := true }
      else j) } := by
  have hnote : ∀ j : Job, j.noteIssued u.purpose = (if u.purpose = .opening then { j with writingIssued := true }
      else if u.purpose = .closing then { j with closingIssued := true } else j) := by
    intro j
    cases u.purpose <;> rfl
  simp only [← hnote]
  rfl

/-- A port that is still free after the grant was asked for by nobody. -/
theorem arbitrate_port_eq_none {s : State} (h : (arbitrate s).port = none) :
    arbitrate s = s ∧ s.engineAsk = none ∧ s.hostAsk = none := by
  rcases hp : s.port with - | p
  · rcases he : s.engineAsk with - | u <;> rcases hh : s.hostAsk with - | v
    · exact ⟨arbitrate_of_quiet he hh, rfl, rfl⟩
    · rw [arbitrate_of_host hp hh (.inl he)] at h; cases h
    · rw [arbitrate_of_engine hp he hh] at h; cases h
    · simp only [arbitrate, hp, he, hh] at h
      split at h <;> cases h
  · rw [arbitrate_of_taken (by simp [hp]), hp] at h
    cases h

theorem arbitrate_host (s : State) : (arbitrate s).host = s.host := by
  rcases arbitrate_cases s with e | ⟨u, n, -, -, -, -, e⟩ | ⟨v, -, -, e⟩ <;> rw [e] <;> rfl

theorem Goes.grant (s : State) : Goes s (arbitrate s) := by
  have hnote : ∀ (u : PortUse) (n : Nat), (grantEngine u n s).served = s.served := by
    intro u n
    simp only [State.served, grantEngine, State.setPort_engine, State.setRunning, State.setEngine_engine, List.map_append]
    congr 1
    cases s.engine.running with
    | none => rfl
    | some j => simp [((noteIssued_like j u.purpose).1).2.1]
  rcases arbitrate_cases s with e | ⟨u, n, -, -, -, -, e⟩ | ⟨v, -, -, e⟩ <;> rw [e]
  · exact .refl s
  · exact .quiet rfl (fun g h => (hnote u n) ▸ h) rfl rfl rfl rfl rfl rfl rfl
  · exact .quiet rfl (fun _ h => h) rfl rfl rfl rfl rfl rfl rfl

theorem Goes.joinHost (s : State) : Goes s (joinHost s) := by
  rcases joinHost_cases s with e | ⟨a, h, -, -, -, -, -, -, -, -, e⟩ <;> rw [e]
  · exact .refl s
  · exact .quiet rfl (fun _ h => h) rfl rfl rfl rfl rfl rfl rfl

/-- The engine's part of the end of a step: none while it waits for an answer or a reset executes. -/
def State.afterEngine (s : State) : State := if s.engineBusy || s.resetting.isSome then s else s.pumped

theorem settle_eq (s : State) : settle s = arbitrate (joinHost s.afterEngine) := rfl

theorem Goes.afterEngine (s : State) : Goes s s.afterEngine := by
  unfold State.afterEngine
  split
  · exact .refl s
  · exact .pumped s

theorem afterEngine_port (s : State) : s.afterEngine.port = s.port ∧ s.afterEngine.host = s.host ∧ s.afterEngine.streak = s.streak := by
  unfold State.afterEngine
  split
  · exact ⟨rfl, rfl, rfl⟩
  · exact pumped_port s

theorem Goes.settle (s : State) : Goes s (settle s) := ((Goes.afterEngine s).trans (.joinHost _)).trans (.grant _)

/-- The request at a joined gap stays as it is where it asks for nothing, or nothing arrives at a free port. -/
theorem joinHost_of_apart {s : State} {a : ActiveRequest} (h : s.host.active = none ∨ s.host.active = some a ∧
    (s.port ≠ none ∨ s.resetting ≠ none ∨ a.wait ≠ .nothing ∨ a.taken ∉ a.gaps ∨ a.taken ∉ a.joined)) : joinHost s = s := by
  rcases joinHost_cases s with e | ⟨b, w, hb, hp, hr, -, hw, hg, hj, -, -⟩
  · exact e
  · rcases h with h | ⟨ha, h⟩
    · rw [h] at hb; cases hb
    · rw [ha] at hb; cases hb
      simp [hp, hr, hw, hg, hj] at h

/-- A request at a joined gap that takes a word first, or has only its response to return, does not arrive (log 27). -/
theorem joinHost_of_silent {s : State} {a : ActiveRequest} (ha : s.host.active = some a) (hn : s.nextWait a = none) :
    joinHost s = s := by
  rcases joinHost_cases s with e | ⟨b, w, hb, -, -, -, -, -, -, hw, -⟩
  · exact e
  · rw [ha] at hb; cases hb
    rw [hn] at hw; cases hw

/-- A request at a joined gap that asks for the port next arrives with the engine's (log 27). -/
theorem joinHost_of_joined {s : State} {a : ActiveRequest} {h : HostWait} (ha : s.host.active = some a) (hp : s.port = none)
    (hr : s.resetting = none) (he : s.engineAsk ≠ none) (hw : a.wait = .nothing) (hg : a.taken ∈ a.gaps) (hj : a.taken ∈ a.joined)
    (hn : s.nextWait a = some h) : joinHost s = s.setHost { s.host with active := some { a.passGap with wait := h } } := by
  have hask : s.engineAsk.isSome = true := Option.isSome_iff_ne_none.mpr he
  simp only [joinHost, ha, hp, hr, hask, hw, hg, hj, hn, Option.isNone_none, Bool.and_self, and_self, decide_true, if_true]

/-! ### What asks for the port -/

theorem engineAsk_of_running {s : State} {j : Job} {x : Group} (hrs : s.resetting = none) (hr : s.engine.running = some j)
    (hx : s.group j.group = some x) : s.engineAsk = nextRequest j x := by
  simp only [State.engineAsk, hrs, hr, hx, Option.bind_some]

theorem engineAsk_of_idle {s : State} (hrs : s.resetting = none) (hr : s.engine.running = none) : s.engineAsk = none := by
  simp only [State.engineAsk, hrs, hr, Option.bind_none]

theorem hostAsk_of_idle {s : State} (ha : s.host.active = none) : s.hostAsk = none := by
  simp only [State.hostAsk, ha, Option.bind_none, ite_self]

theorem hostAsk_of_active {s : State} {a : ActiveRequest} (hrs : s.resetting = none) (ha : s.host.active = some a) :
    s.hostAsk = (match a.wait with
      | .nothing => none
      | .run => some ⟨.run, ⟨a.request.dir, a.request.addr + BitVec.ofNat 24 (a.taken - a.run.length), a.run⟩⟩
      | .layered _ lanes => some ⟨.layered, ⟨.read, a.request.addr + BitVec.ofNat 24 a.taken, [⟨lanes, 0⟩]⟩⟩) := by
  simp only [State.hostAsk, hrs, ha, Option.isSome_none, Bool.false_eq_true, if_false, Option.bind_some]
  cases a.wait <;> rfl

/-- An engine that asks for the port has stopped to wait for it (R103). -/
theorem stalled_of_engineAsk {s : State} {u : PortUse} (hrs : s.resetting = none) (h : s.engineAsk = some u) : s.Stalled := by
  simp only [State.engineAsk, hrs] at h
  obtain ⟨j, hj, h⟩ := Option.bind_eq_some_iff.mp h
  exact .inr ⟨j, u, hj, h⟩

/-- A stalled engine that runs a job asks for the port. -/
theorem engineAsk_of_stalled {s : State} (hrs : s.resetting = none) (h : s.Stalled) :
    (s.engine.running = none ∧ s.engine.queue = []) ∨ s.engine.running ≠ none ∧ s.engineAsk ≠ none := by
  rcases h with h | ⟨j, u, hr, hu⟩
  · exact .inl h
  · exact .inr ⟨by simp [hr], by simp [State.engineAsk, hrs, hr, hu]⟩

end Sys2Proof.Machine
end

section
/-! PROOFS. The obligations about the arbiter and the end of a step (R118, logs 9, 19 and 27). -/

namespace Sys2Proof.Machine

open Sys2Proof.Safety

/-- The grant, by the table (R118). -/
theorem arbitrate_table (s : State) :
    (s.port ≠ none → arbitrate s = s) ∧
    (s.port = none → s.engineAsk = none → s.hostAsk = none → arbitrate s = s) ∧
    (∀ u, s.port = none → s.engineAsk = some u →
      (s.hostAsk = none → (arbitrate s).port = some u ∧ (arbitrate s).streak = 0) ∧
      (s.hostAsk ≠ none → s.streak < 8 → (arbitrate s).port = some u ∧ (arbitrate s).streak = s.streak + 1) ∧
      (s.hostAsk = none ∨ s.streak < 8 → (arbitrate s).engine = { s.engine with
        running := s.engine.running.map (fun j =>
          if u.purpose = .opening then { j with writingIssued := true }
          else if u.purpose = .closing then { j with closingIssued := true }
          else j) })) ∧
    (∀ v, s.port = none → s.hostAsk = some v → (s.engineAsk = none ∨ s.streak = 8) →
      (arbitrate s).port = some v ∧ (arbitrate s).streak = 0 ∧ (arbitrate s).engine = s.engine) ∧
    arbitrate s = { s with port := (arbitrate s).port, streak := (arbitrate s).streak, engine := (arbitrate s).engine } := by
  refine ⟨arbitrate_of_taken, fun _ => arbitrate_of_quiet, fun u hp he => ⟨fun hh => ?_, fun hh hs => ?_, fun hor => ?_⟩,
    fun v hp hh hor => ?_, ?_⟩
  · rw [arbitrate_of_engine hp he hh]; exact ⟨rfl, rfl⟩
  · obtain ⟨v, hv⟩ := Option.ne_none_iff_exists'.mp hh
    rw [arbitrate_of_both hp he hv hs]; exact ⟨rfl, rfl⟩
  · rcases hh : s.hostAsk with - | v
    · rw [arbitrate_of_engine hp he hh, grantEngine_engine]
    · rw [arbitrate_of_both hp he hh (hor.resolve_left (by simp [hh])), grantEngine_engine]
  · rw [arbitrate_of_host hp hh hor]; exact ⟨rfl, rfl, rfl⟩
  · rcases arbitrate_cases s with e | ⟨u, n, -, -, -, -, e⟩ | ⟨v, -, -, e⟩ <;> rw [e] <;> rfl

/-- The end of a step at which the engine already waits for a free port (R118). -/
theorem settle_of_engineAsk {s : State} {u : PortUse} (hp : s.port = none) (hrs : s.resetting = none) (he : s.engineAsk = some u) :
    settle s = arbitrate (joinHost s) := by
  have hb : s.engineBusy = false := by simp [State.engineBusy, hp]
  rw [settle_of_free hb hrs, pumped_of_stalled (stalled_of_engineAsk hrs he)]

/-- What a request at a gap asks for next, in one table. -/
theorem nextWait_eq (s : State) (a : ActiveRequest) : s.nextWait a = (match a.request.words[a.taken]? with
      | none => if a.run = [] then none else some .run
      | some w =>
        let c := classify s (a.request.addr + BitVec.ofNat 24 a.taken)
        if forwarded s a.request.dir c = true then none
        else if a.run ≠ [] then some .run
        else
          match a.request.dir, c with
          | .read, .outputData g off | .read, .outputSeal g off | .read, .draining g off =>
            if (s.layered g off w.lanes).2 = 0 then none
            else some (.layered (s.layered g off w.lanes).1 (s.layered g off w.lanes).2)
          | _, _ => none) := by
  unfold State.nextWait ActiveRequest.nextAddr
  rcases a.request.words[a.taken]? with - | w
  · simp only [List.isEmpty_iff]
  · simp only [Bool.not_eq_true', List.isEmpty_eq_false_iff]
    congr 2
    rcases a.request.dir <;> rcases classify s (a.request.addr + BitVec.ofNat 24 a.taken) <;> rfl

/-- Settles O34: the table of the grant, the joined arrival, and the frame of the engine's going on. -/
theorem arbiterTable : Obligations.ArbiterTable := by
  refine ⟨arbitrate_table, fun s a u ask hp hrs ha hw hg hj he hask => ?joined, fun s a h => ?apart, fun s hrs => ?asks,
    fun s g => ?groups, fun s => ?edges, fun s => ?frame⟩
  case joined =>
    have hset := settle_of_engineAsk hp hrs he
    have hask : ask = s.nextWait a := hask.trans (nextWait_eq s a).symm
    refine ⟨fun hnone => ?_, fun h hsome => ?_⟩
    · rw [joinHost_of_silent ha (hask.symm.trans hnone)] at hset
      have hhost : s.hostAsk = none := by rw [hostAsk_of_active hrs ha, hw]
      rw [hset, arbitrate_of_engine hp he hhost]
      exact ⟨rfl, rfl, rfl⟩
    · rw [joinHost_of_joined ha hp hrs (by simp [he]) hw hg hj (hask.symm.trans hsome)] at hset
      have hwait : h ≠ .nothing := by
        rcases nextWait_cases (hask.symm.trans hsome) with ⟨rfl, -⟩ | ⟨-, -, -, image, lanes, rfl⟩ <;> exact fun e => by cases e
      obtain ⟨t, ht⟩ : ∃ t, t = s.setHost { s.host with active := some { a.passGap with wait := h } } := ⟨_, rfl⟩
      have hp' : t.port = none := by rw [ht]; exact hp
      have he' : t.engineAsk = some u := by rw [ht]; exact he
      have hstreak : t.streak = s.streak := by rw [ht]; rfl
      have hhost := hostAsk_of_active (s := t) (a := { a.passGap with wait := h }) (by rw [ht]; exact hrs) (by rw [ht]; rfl)
      rw [hset, ← ht, ← hstreak]
      refine ⟨fun hs => ?_, fun hs => ?_, (arbitrate_host t).trans (by rw [ht]; rfl)⟩
      · cases h with
        | nothing => exact absurd rfl hwait
        | run => rw [arbitrate_of_both hp' he' hhost hs]; exact ⟨rfl, rfl⟩
        | layered image lanes => rw [arbitrate_of_both hp' he' hhost hs]; exact ⟨rfl, rfl⟩
      · cases h with
        | nothing => exact absurd rfl hwait
        | run => rw [arbitrate_of_host hp' hhost (.inr hs)]; exact ⟨rfl, rfl⟩
        | layered image lanes => rw [arbitrate_of_host hp' hhost (.inr hs)]; exact ⟨rfl, rfl⟩
  case apart =>
    obtain ⟨hport, hhost, -⟩ := afterEngine_port s
    rw [settle_eq, arbitrate_host, joinHost_of_apart (a := a), hhost]
    rw [hhost, hport, (Goes.afterEngine s).resetting]
    exact h
  case asks =>
    exact ⟨fun j x hr hx => engineAsk_of_running hrs hr hx, engineAsk_of_idle hrs, hostAsk_of_idle, fun a => hostAsk_of_active hrs⟩
  case groups =>
    have h := Goes.settle s
    refine ⟨h.absent g, fun hno => h.others g fun hg => ?_, h.group g⟩
    obtain ⟨j, hj, hjg⟩ := mem_served.mp hg
    exact hno j hj hjg
  case edges =>
    rw [(Goes.settle s).edges]
    simp only [voidWhere, stateMoved, decide_eq_true_eq]
  case frame =>
    have h := Goes.settle s
    generalize settle s = t at h ⊢
    rw [← h.resetAsserted, ← h.freeSafe, ← h.sources, ← h.link, ← h.resetting, ← h.pending]

end Sys2Proof.Machine
end

section
/-! SUPPORT. The requests of a job, phase by phase (R104 to R114), and the end of an image job (R26, R108). -/

namespace Sys2Proof.Machine

open Sys2Proof.Safety

/-! ### The next request -/

theorem GroupRecord.seqWord_isSome (r : GroupRecord) : r.seqWord.isSome = r.seqAddr.isSome := by
  simp [GroupRecord.seqWord]

theorem owesOpening_iff {j : Job} {x : Group} : j.owesOpening x = true ↔ x.record.seqAddr ≠ none ∧ j.writingIssued = false := by
  simp [Job.owesOpening, GroupRecord.seqWord_isSome, Option.isSome_iff_ne_none]

theorem not_owesOpening {j : Job} {x : Group} (h : x.record.seqAddr = none ∨ j.writingIssued = true) : ¬ j.owesOpening x = true := by
  rw [owesOpening_iff]
  rintro ⟨hs, hw⟩
  rcases h with h | h
  · exact hs h
  · rw [hw] at h; cases h

theorem seqWordAddr_of_seqAddr {x : Group} {q : BitVec 32} (h : x.record.seqAddr = some q) :
    x.seqWordAddr = BitVec.ofNat 24 (q.toNat / 4) := by
  rw [Group.seqWordAddr, GroupRecord.seqWord, h]
  rfl

theorem nextRequest_of_capture {j : Job} {x : Group} (h : j.phase = .capture) : nextRequest j x =
    if j.progress < x.record.length then some ⟨.burst, burstRequest x j.progress⟩ else none := by
  simp only [nextRequest, h]

theorem nextRequest_of_opening {j : Job} {x : Group} {q : BitVec 32} (h : j.phase = .plain ∨ j.phase = .release)
    (hq : x.record.seqAddr = some q) (hw : j.writingIssued = false) :
    nextRequest j x = some ⟨.opening, ⟨.write, BitVec.ofNat 24 (q.toNat / 4), [⟨0xF, 0b01#2 ++ j.count⟩]⟩⟩ := by
  have ho : j.owesOpening x = true := owesOpening_iff.mpr ⟨by simp [hq], hw⟩
  rcases h with h | h <;> simp only [nextRequest, h, ho, if_true, openingRequest, seqWordAddr_of_seqAddr hq] <;> rfl

/-- The job writes its image: after its opening write, or in ENGAGE. -/
def Job.writes (j : Job) (x : Group) : Prop :=
  j.phase = .engage ∨ j.phase = .plain ∧ (x.record.seqAddr = none ∨ j.writingIssued = true)

theorem nextRequest_of_entry {j : Job} {x : Group} {e : Entry} (h : j.writes x) (he : x.jobImage[j.progress]? = some e) :
    nextRequest j x = some ⟨.dataWrite, dataRequest x e⟩ := by
  rcases h with h | ⟨h, ho⟩
  · simp only [nextRequest, h, he]
  · simp only [nextRequest, h, he, if_neg (not_owesOpening ho)]

theorem nextRequest_of_written {j : Job} {x : Group} (h : j.writes x) (hl : x.jobImage.length ≤ j.progress) :
    nextRequest j x = closingOf j x := by
  have he := List.getElem?_eq_none hl
  rcases h with h | ⟨h, ho⟩
  · simp only [nextRequest, h, he]
  · simp only [nextRequest, h, he, if_neg (not_owesOpening ho)]

theorem closingOf_of_none {j : Job} {x : Group} (h : x.record.seqAddr = none) : closingOf j x = none := by
  rw [closingOf, if_neg (by simp [GroupRecord.seqWord_isSome, h])]

theorem closingOf_of_some {j : Job} {x : Group} {q : BitVec 32} (h : x.record.seqAddr = some q) : closingOf j x = some ⟨.closing,
    ⟨.write, BitVec.ofNat 24 (q.toNat / 4), [⟨0xF, (if j.faulted then 0b10#2 else 0b00#2) ++ j.count⟩]⟩⟩ := by
  rw [closingOf, if_pos (by simp [GroupRecord.seqWord_isSome, h]), closingRequest, seqWordAddr_of_seqAddr h]
  rfl

theorem nextRequest_of_release {j : Job} {x : Group} {e : Entry} (h : j.phase = .release)
    (ho : x.record.seqAddr = none ∨ j.writingIssued = true) (he : x.jobImage[j.progress]? = some e) :
    nextRequest j x = match j.releaseData with
      | none => some ⟨.releaseRead, releaseReadRequest x e⟩
      | some w => some ⟨.releaseWrite, releaseWriteRequest x e w⟩ := by
  rcases hd : j.releaseData with - | w <;> simp only [nextRequest, h, he, hd, if_neg (not_owesOpening ho)]

theorem nextRequest_of_released {j : Job} {x : Group} (h : j.phase = .release)
    (ho : x.record.seqAddr = none ∨ j.writingIssued = true) (hl : x.jobImage.length ≤ j.progress) : nextRequest j x = none := by
  simp only [nextRequest, h, List.getElem?_eq_none hl, if_neg (not_owesOpening ho)]

/-! ### The close of an image job -/

/-- The queue after the close of a job: COMMIT_FAULT stands in it when the job faulted (R108). -/
def Job.closeEvents (j : Job) (q : EventQueue) : EventQueue :=
  if j.faulted then q.raise (jobEvent .commitFault j.group j.epoch (j.faultPosition.elim 0 FaultPosition.detail)) else q

/-- The state in which a job has closed and its group has not taken the completion yet. -/
def closedJob (j : Job) (s : State) : State :=
  { s with engine := { s.engine with running := none }, events := j.closeEvents s.events }

theorem closeJob_eq (j : Job) (s : State) : closeJob j s = completeImageJob j (closedJob j s) := by
  unfold closeJob closedJob Job.closeEvents
  split <;> rfl

theorem stageEntries_eq (o : Option Committing) : o.elim 0 Committing.stageEntries = (match o with
    | some (.commit img) => img.length
    | some .safe => 0
    | none => 0) := by
  rcases o with - | c
  · rfl
  · cases c <;> rfl

theorem completeImageJob_of_plain {j : Job} {s : State} {x : Group} (hx : s.group j.group = some x) (hk : x.record.kind = .output)
    (hs : x.state = .live ∨ x.state = .safe ∧ x.pendingSafe = false) : completeImageJob j s =
      (s.returnStage (x.committing.elim 0 Committing.stageEntries)).setGroup j.group
        { x with seqCount := j.count, committing := none } := by
  rcases hs with hs | ⟨hs, hp⟩
  · simp only [completeImageJob, hx, hk, hs]
  · simp only [completeImageJob, hx, hk, hs, hp]
    rfl

theorem completeImageJob_of_pending {j : Job} {s : State} {x : Group} (hx : s.group j.group = some x) (hk : x.record.kind = .output)
    (hs : x.state = .safe) (hp : x.pendingSafe = true) : completeImageJob j s =
      createSafe j.group { x with seqCount := j.count, committing := none } (s.source x.record.source).epoch
        (s.returnStage (x.committing.elim 0 Committing.stageEntries)) := by
  simp only [completeImageJob, hx, hk, hs, hp, if_true]
  rfl

theorem completeImageJob_of_draining {j : Job} {s : State} {x : Group} (hx : s.group j.group = some x)
    (hk : x.record.kind = .output) (hs : x.state = .draining) : completeImageJob j s =
      (becomeDisabled j.group { x with seqCount := j.count, committing := none }
        (s.returnStage (x.committing.elim 0 Committing.stageEntries))).raise (groupEvent .groupDrained j.group 0) := by
  simp only [completeImageJob, hx, hk, hs]

theorem closeJob_of_plain {j : Job} {s : State} {x : Group} (hx : s.group j.group = some x) (hk : x.record.kind = .output)
    (hs : x.state = .live ∨ x.state = .safe ∧ x.pendingSafe = false) : closeJob j s = { s with
      freeStage := s.freeStage + x.committing.elim 0 Committing.stageEntries, events := j.closeEvents s.events
      engine := { s.engine with running := none }
      groups := s.groups.set j.group (some { x with seqCount := j.count, committing := none }) } := by
  rw [closeJob_eq, completeImageJob_of_plain (s := closedJob j s) hx hk hs]
  rfl

theorem closeJob_of_pending {j : Job} {s : State} {x : Group} (hx : s.group j.group = some x) (hk : x.record.kind = .output)
    (hs : x.state = .safe) (hp : x.pendingSafe = true) : closeJob j s = { s with
      freeStage := s.freeStage + x.committing.elim 0 Committing.stageEntries, events := j.closeEvents s.events
      engine := { s.engine with
        running := none
        queue := s.engine.queue ++ [{
          kind := .safe, group := j.group, count := j.count + 1, epoch := (s.source x.record.source).epoch
          bbm := x.record.bbm, margin := if x.record.bbm then s.marginOf x.record.source else 0
          marginExpired := x.record.bbm && decide (s.marginOf x.record.source = 0)
          phase := if x.record.bbm then .release else .plain, progress := 0, writingIssued := false
          closingIssued := false, faulted := false, faultPosition := none, releaseData := none }] }
      groups := s.groups.set j.group (some { x with seqCount := j.count, committing := some .safe, pendingSafe := false }) } := by
  rw [closeJob_eq, completeImageJob_of_pending (s := closedJob j s) hx hk hs hp]
  rfl

theorem closeJob_of_draining {j : Job} {s : State} {x : Group} (hx : s.group j.group = some x) (hk : x.record.kind = .output)
    (hs : x.state = .draining) : closeJob j s = { s with
      freeStage := s.freeStage + x.committing.elim 0 Committing.stageEntries, engine := { s.engine with running := none }
      edges := voidedForGroup j.group s.edges
      events := (j.closeEvents s.events).raise
        { kind := .groupDrained, group := some j.group, source := none, epoch := none, detail := 0 }
      groups := s.groups.set j.group (some { x with seqCount := j.count, committing := none, state := .disabled }) } := by
  rw [closeJob_eq, completeImageJob_of_draining (s := closedJob j s) hx hk hs]
  rfl

/-- COMMIT_FAULT, with the first position that faulted (R108). -/
theorem closeEvents_eq (j : Job) (q : EventQueue) : j.closeEvents q = (if j.faulted = true then q.raise
      { kind := .commitFault, group := some j.group, source := none, epoch := some j.epoch
        detail := match j.faultPosition with
          | some (.offset o) => o.setWidth 16
          | some .sequenceWord => 0xFFFF
          | none => 0 }
    else q) := by
  unfold Job.closeEvents
  rcases j.faultPosition with - | p
  · rfl
  · cases p <;> rfl

end Sys2Proof.Machine
end

section
/-! PROOFS. The requests of a job, and the engine's going on at the end of a step (R103 to R114). -/

namespace Sys2Proof.Machine

open Sys2Proof.Safety

/-- Settles O33: the next request, by the phase and the progress. -/
theorem jobRequestOrder : Obligations.JobRequestOrder := by
  intro j x
  refine ⟨fun h => ⟨fun hlt => ?_, fun hle => ?_⟩, fun q h hq hw => nextRequest_of_opening h hq hw,
    fun h => ⟨fun e he => nextRequest_of_entry h he, fun hl hq => ?_, fun q hl hq => ?_⟩,
    fun h ho => ⟨fun e he hd => ?_, fun e w he hd => ?_, nextRequest_of_released h ho⟩⟩
  · rw [nextRequest_of_capture h, if_pos hlt]; rfl
  · rw [nextRequest_of_capture h, if_neg (Nat.not_lt.mpr hle)]
  · rw [nextRequest_of_written h hl, closingOf_of_none hq]
  · rw [nextRequest_of_written h hl, closingOf_of_some hq]
  · rw [nextRequest_of_release h ho he, hd]; rfl
  · rw [nextRequest_of_release h ho he, hd]; rfl

theorem dispatch_of_image {j : Job} {rest : List Job} {s : State} (h : j.kind ≠ .capture) :
    dispatch j rest s = { s with engine := { s.engine with queue := rest, running := some j } } := by
  unfold dispatch
  cases hk : j.kind
  · rfl
  · rfl
  · exact absurd hk h

theorem dispatch_of_capture {j : Job} {rest : List Job} {s : State} {x : Group} (h : j.kind = .capture)
    (hx : s.group j.group = some x) (hk : x.record.kind = .input) : dispatch j rest s = { s with
      engine := { s.engine with queue := rest, running := some j }
      groups := s.groups.set j.group (some { x with back := .filling [] }) } := by
  have hin := fun k => State.onInput_of_input (s := s.setEngine { s.engine with queue := rest, running := some j }) k hx hk
  simp only [dispatch, h, captureStart, hin]
  rfl

theorem endPhase_of_release {j : Job} {s : State} (h : j.phase = .release) : endPhase j s = endRelease j s := by
  simp only [endPhase, h]

theorem endPhase_of_close {j : Job} {s : State} (h : j.phase = .plain ∨ j.phase = .engage) : endPhase j s = closeJob j s := by
  rcases h with h | h <;> simp only [endPhase, h]

/-- After the grant the engine stands still only with cause (R103, logs 9 and 27). -/
theorem settle_never_stalls {s : State} (hb : s.engineBusy = false) (hrs : s.resetting = none) :
    ((settle s).engine.running = none → (settle s).engine.queue = []) ∧
    ((settle s).port = none → (settle s).engine.running = none ∧ (settle s).engineAsk = none ∧ (settle s).hostAsk = none) := by
  rw [settle_of_free hb hrs]
  obtain ⟨u, hu⟩ : ∃ u, u = joinHost s.pumped := ⟨_, rfl⟩
  have hgo : u.resetting = none ∧ u.Stalled := by
    have hp : s.pumped.resetting = none := (Goes.pumped s).resetting.trans hrs
    have hstop := pumped_stalled s
    rw [hu]
    rcases joinHost_cases s.pumped with e | ⟨a, h, -, -, -, -, -, -, -, -, e⟩ <;> rw [e] <;> exact ⟨hp, hstop⟩
  rw [← hu]
  have hcases := engineAsk_of_stalled hgo.1 hgo.2
  refine ⟨fun hnone => ?_, fun hport => ?_⟩
  · have hrun : u.engine.running = none ∧ (arbitrate u).engine.queue = u.engine.queue := by
      rcases arbitrate_cases u with e | ⟨v, n, -, -, -, -, e⟩ | ⟨v, -, -, e⟩ <;> rw [e] at hnone ⊢
      · exact ⟨hnone, rfl⟩
      · exact ⟨Option.map_eq_none_iff.mp hnone, rfl⟩
      · exact ⟨hnone, rfl⟩
    rw [hrun.2]
    exact (hcases.resolve_right fun h => h.1 hrun.1).2
  · obtain ⟨hsame, he, hh⟩ := arbitrate_port_eq_none hport
    rw [hsame]
    exact ⟨(hcases.resolve_right fun h => h.2 he).1, he, hh⟩

/-- Settles O35: one round of the engine in each case, and the stop it comes to. -/
theorem engineNeverStalls : Obligations.EngineNeverStalls := by
  refine ⟨fun s hb hrs hr j rest hq => ⟨fun hk => ?_, fun x hk hx hin => ?_⟩, fun s j x hb hrs hr hx hl => ⟨fun hp ho => ?release,
    fun raised n hp hq hk hraised hn => ?close⟩, fun s hb hrs => settle_never_stalls hb hrs⟩
  · rw [settle_dispatch hb hrs hr hq, dispatch_of_image hk]
  · rw [settle_dispatch hb hrs hr hq, dispatch_of_capture hk hx hin]
  case release =>
    have hnone : (s.group j.group).bind (nextRequest j) = none := by
      rw [hx, Option.bind_some, nextRequest_of_released hp ho hl]
    rw [settle_endPhase hb hrs hr hnone, endPhase_of_release hp, endRelease]
    refine ⟨fun hm => ?_, fun hm => ?_⟩
    · simp only [hm, if_true]; rfl
    · simp only [hm, Bool.false_eq_true, if_false]; rfl
  case close =>
    have hnone : (s.group j.group).bind (nextRequest j) = none := by
      rw [hx, Option.bind_some, nextRequest_of_written (hp.symm.imp id fun h => ⟨h, .inl hq⟩) hl, closingOf_of_none hq]
    have hraised : raised = j.closeEvents s.events := hraised.trans (closeEvents_eq j s.events).symm
    have hn : n = x.committing.elim 0 Committing.stageEntries := hn.trans (stageEntries_eq _).symm
    rw [settle_endPhase hb hrs hr hnone, endPhase_of_close hp, hraised, hn]
    refine ⟨fun hs => ?_, fun hs hpend => ?_, fun hs => ?_⟩
    · rw [closeJob_of_plain hx hk hs]
    · rw [closeJob_of_pending hx hk hs hpend]
    · rw [closeJob_of_draining hx hk hs]

end Sys2Proof.Machine
end

section
/-! SUPPORT. The answers to the engine's requests outside a reset (R106 to R116), and the timers of its jobs (R110, R112). -/

namespace Sys2Proof.Machine

open Sys2Proof.Safety

theorem jobAnswer_of_port {s : State} {p : Purpose} {q : PortRequest} {j : Job} (k : Job → State → Result)
    (hp : s.port = some ⟨p, q⟩) (hr : s.engine.running = some j) : jobAnswer p s k = k j (s.setPort none) := by
  simp only [jobAnswer, outstanding_eq_some.mpr hp, hr]

theorem afterAnswer_of_free {s : State} (h : s.resetting = none) : afterAnswer s = settle s := by
  simp only [afterAnswer, h]

/-- The state after the answer to a request of the running job, before the part goes on. -/
def answeredJob (j : Job) (s : State) : State := { s with port := none, engine := { s.engine with running := some j } }

/-- An answer that is recorded in the running job alone (R104 to R113). -/
theorem jobAnswer_of_record {s : State} {p : Purpose} {q : PortRequest} {j : Job} (f : Job → State → Job) (hra : s.resetAsserted = false)
    (hrs : s.resetting = none) (hp : s.port = some ⟨p, q⟩) (hr : s.engine.running = some j) :
    unlessReset s (jobAnswer p s (fun j t => .next (afterAnswer (t.setRunning (some (f j t)))))) =
      .next (settle (answeredJob (f j (s.setPort none)) s)) := by
  have hafter : ∀ k, afterAnswer ((s.setPort none).setRunning (some k)) = settle (answeredJob k s) :=
    fun k => afterAnswer_of_free hrs
  rw [unlessReset_of_false hra, jobAnswer_of_port _ hp hr, hafter]

/-- An answer that leaves the running job as it is. -/
theorem answeredJob_self {s : State} {j : Job} (hr : s.engine.running = some j) : answeredJob j s = { s with port := none } := by
  unfold answeredJob
  rw [← hr]

/-- The fault position that an answer to the request of an entry records (R109, R113). -/
theorem currentPosition_of_entry {s : State} {j : Job} {x : Group} {e : Entry} (hx : s.group j.group = some x)
    (he : x.jobImage[j.progress]? = some e) : (s.setPort none).currentPosition j = .offset e.offset := by
  have hcur : (s.setPort none).currentEntry j = some e := by
    rw [State.currentEntry, State.group_setPort, hx, Option.bind_some, he]
  rw [State.currentPosition, hcur]
  rfl

theorem currentEntry_of_entry {s : State} {j : Job} {x : Group} {e : Entry} (hx : s.group j.group = some x)
    (he : x.jobImage[j.progress]? = some e) : (s.setPort none).currentEntry j = some e := by
  rw [State.currentEntry, State.group_setPort, hx, Option.bind_some, he]

/-! ### The timers of the jobs -/

/-- Of jobs of different groups, those beside one are of other groups. -/
theorem others_of_nodup {l l' : List Job} {j : Job} (h : ((l ++ j :: l').map Job.group).Nodup) :
    ∀ k ∈ l ++ l', k.group ≠ j.group := by
  rw [List.map_append, List.map_cons, List.nodup_middle, List.nodup_cons] at h
  intro k hk he
  exact h.1 (by rw [← List.map_append, ← he]; exact List.mem_map_of_mem hk)

theorem marginRuns_of_other {g : GroupNo} {j : Job} (h : j.group ≠ g) : j.marginRuns g = false := by
  simp [Job.marginRuns, h]

theorem map_noteMargin_of_still {g : GroupNo} {l : List Job} (h : ∀ j ∈ l, j.marginRuns g = false) : l.map (Job.noteMargin g) = l := by
  refine (List.map_congr_left fun j hj => ?_).trans (List.map_id l)
  simp [Job.noteMargin, h j hj]

theorem filter_marginRuns_of_still {g : GroupNo} {l : List Job} (h : ∀ j ∈ l, j.marginRuns g = false) :
    l.filter (fun j => j.marginRuns g) = [] ∧ l.filter (fun j => !j.marginRuns g) = l :=
  ⟨List.filter_eq_nil_iff.mpr fun j hj => by simp [h j hj], List.filter_eq_self.mpr fun j hj => by simp [h j hj]⟩

theorem noteMargin_of_runs {g : GroupNo} {j : Job} (h : j.marginRuns g = true) :
    j.noteMargin g = { j with marginExpired := true } := if_pos h

theorem marginRuns_iff {g : GroupNo} {j : Job} : j.marginRuns g = true ↔ j.group = g ∧ j.bbm = true ∧ j.marginExpired = false := by
  simp [Job.marginRuns, and_assoc]

/-- An expiry of a timer that runs, at the end of the step. -/
theorem exec_marginExpiry_of_runs {s : State} {g : GroupNo} {j : Job} (hra : s.resetAsserted = false) (hj : j ∈ s.engine.jobs)
    (hm : j.marginRuns g = true) : exec (.marginExpiry g) s = .next (settle (marginExpired g s)) := by
  have hany : s.engine.jobs.any (fun j => j.marginRuns g) = true := List.any_eq_true.mpr ⟨j, hj, hm⟩
  exact (unlessReset_of_false hra _).trans (by rw [if_pos hany])

theorem jobs_eq (e : Engine) : e.jobs = e.running.toList ++ e.queue ++ e.marginList := rfl

/-! ### The answer to a capture burst -/

/-- The state after a burst was answered OKAY: its words stand at the end of the filling bank, and the job's progress past them
(R114). -/
def burstTaken (j : Job) (x : Group) (ws data : List Word) (s : State) : State := { s with
  port := none
  engine := { s.engine with running := some { j with progress := j.progress + data.length } }
  groups := s.groups.set j.group (some { x with back := .filling (ws ++ data) }) }

theorem group_burstTaken (j : Job) (x : Group) (ws data : List Word) (s : State) :
    (burstTaken j x ws data s).group j.group = some { x with back := .filling (ws ++ data) } :=
  State.group_setGroup_same s j.group { x with back := .filling (ws ++ data) }

/-- The end of a draining group's capture (R155). -/
theorem completeCapture_of_draining {j : Job} {s : State} {x : Group} (hx : s.group j.group = some x) (hk : x.record.kind = .input)
    (hs : x.state = .draining) : completeCapture j s = endInputDrain j.group x s := by
  unfold completeCapture
  rw [State.onInput_of_input _ hx hk]
  simp only [hs]

theorem completeCapture_of_live {j : Job} {s : State} {x : Group} (hx : s.group j.group = some x) (hk : x.record.kind = .input)
    (hs : x.state = .live) : completeCapture j s = s.setGroup j.group (if x.held then
        { x with captureInFlight := false, back := .pending ⟨j.epoch, x.back.words⟩ }
      else { x with captureInFlight := false, front := some ⟨j.epoch, x.back.words⟩, back := .idle }) := by
  unfold completeCapture
  rw [State.onInput_of_input _ hx hk]
  simp only [hs]
  split <;> rfl

theorem failCapture_of_draining {j : Job} {s : State} {x : Group} (hx : s.group j.group = some x) (hk : x.record.kind = .input)
    (hs : x.state = .draining) : failCapture j s = endInputDrain j.group x s := by
  unfold failCapture
  rw [State.onInput_of_input _ hx hk]
  simp only [hs]

theorem failCapture_of_live {j : Job} {s : State} {x : Group} (hx : s.group j.group = some x) (hk : x.record.kind = .input)
    (hs : x.state = .live) : failCapture j s = s.setGroup j.group { x with captureInFlight := false, back := .idle } := by
  unfold failCapture
  rw [State.onInput_of_input _ hx hk]
  simp only [hs]

section
variable {s : State} {j : Job} {q : PortRequest} {x : Group} {ws data : List Word}

/-- A burst answered OKAY, with as many words as it asked for. -/
theorem exec_burst_okay (hra : s.resetAsserted = false) (hrs : s.resetting = none) (hr : s.engine.running = some j)
    (hp : s.port = some ⟨.burst, q⟩) (hx : s.group j.group = some x) (hk : x.record.kind = .input) (hb : x.back = .filling ws)
    (hd : data.length = q.words.length) :
    exec (.captureBurstResponse .okay data) s = .next (settle (burstTaken j x ws data s)) := by
  have hplace : placeBurst j.group data (s.setPort none) = (s.setPort none).setGroup j.group { x with back := .filling (ws ++ data) } := by
    have hwords : x.back.words = ws := by rw [hb]; rfl
    unfold placeBurst
    rw [State.onInput_of_input (s := s.setPort none) _ hx hk, hwords]
  refine (unlessReset_of_false hra _).trans ?_
  rw [outstanding_eq_some.mpr hp]
  refine (jobAnswer_of_port _ hp hr).trans ?_
  simp only [if_pos hd]
  rw [afterAnswer_of_free (by rw [hplace]; exact hrs), hplace]
  rfl

/-- A burst answered FAULT aborts the capture (R115). -/
theorem exec_burst_fault (data : List Word) (hra : s.resetAsserted = false) (hrs : s.resetting = none)
    (hr : s.engine.running = some j) (hp : s.port = some ⟨.burst, q⟩) (hf : (abortCapture j (s.setPort none)).resetting = none) :
    exec (.captureBurstResponse .fault data) s = .next (settle (abortCapture j (s.setPort none))) := by
  refine (unlessReset_of_false hra _).trans ?_
  rw [outstanding_eq_some.mpr hp]
  refine (jobAnswer_of_port _ hp hr).trans ?_
  have hfree : ¬ (s.setPort none).resetting.isSome = true := by rw [State.setPort_resetting, hrs]; decide
  simp only [if_neg hfree]
  rw [afterAnswer_of_free hf]

/-- The last burst of a capture ends it at once (R116). -/
theorem settle_lastBurst (hrs : s.resetting = none) (hc : j.phase = .capture) (hl : x.record.length ≤ j.progress + data.length) :
    settle (burstTaken j x ws data s) = settle (completeCapture { j with progress := j.progress + data.length }
      ((burstTaken j x ws data s).setRunning none)) := by
  have hnext := nextRequest_of_capture (j := { j with progress := j.progress + data.length })
    (x := { x with back := .filling (ws ++ data) }) hc
  have hnone : ((burstTaken j x ws data s).group j.group).bind (nextRequest { j with progress := j.progress + data.length }) = none := by
    rw [group_burstTaken, Option.bind_some, hnext, if_neg (Nat.not_lt.mpr hl)]
  rw [settle_endPhase (s := burstTaken j x ws data s) rfl hrs rfl hnone]
  congr 1
  simp only [endPhase, hc]

end

end Sys2Proof.Machine
end

section
/-! PROOFS. The answers to the engine's requests and the expiry of a margin (R106 to R116, R147, R148). -/

namespace Sys2Proof.Machine

open Sys2Proof.Safety

/-- Settles O36: each answer is recorded in the running job alone. -/
theorem jobAnswers : Obligations.JobAnswers := by
  intro s j q x hra hrs hr hx
  refine ⟨fun hp => ⟨?_, ?_⟩, fun e he => ?_⟩
  · exact (jobAnswer_of_record (fun j _ => j.noteAnswer .okay .sequenceWord) hra hrs hp hr).trans (by rw [← answeredJob_self hr]; rfl)
  · exact jobAnswer_of_record (fun j _ => j.noteAnswer .fault .sequenceWord) hra hrs hp hr
  have hpos := currentPosition_of_entry hx he
  have hcur := currentEntry_of_entry hx he
  refine ⟨fun hp => ⟨?_, ?_⟩, fun hp => ⟨fun data => ?_, fun data => ?_⟩, fun hp => ⟨?_, ?_⟩⟩
  · exact jobAnswer_of_record (fun j t => { j.noteAnswer .okay (t.currentPosition j) with progress := j.progress + 1 }) hra hrs hp hr
  · refine (jobAnswer_of_record (fun j t => { j.noteAnswer .fault (t.currentPosition j) with progress := j.progress + 1 })
      hra hrs hp hr).trans ?_
    rw [hpos]
    rfl
  · refine (jobAnswer_of_record (fun j t => { j with releaseData := some (data &&& (t.currentEntry j).elim 0 (fun e => e.data)) })
      hra hrs hp hr).trans ?_
    rw [hcur]
    rfl
  · refine (jobAnswer_of_record (fun j t => { j.noteAnswer .fault (t.currentPosition j) with
      progress := j.progress + 1, releaseData := none }) hra hrs hp hr).trans ?_
    rw [hpos]
    rfl
  · exact jobAnswer_of_record (fun j t => { j.noteAnswer .okay (t.currentPosition j) with
      progress := j.progress + 1, releaseData := none }) hra hrs hp hr
  · refine (jobAnswer_of_record (fun j t => { j.noteAnswer .fault (t.currentPosition j) with
      progress := j.progress + 1, releaseData := none }) hra hrs hp hr).trans ?_
    rw [hpos]
    rfl

/-- The answer to the closing write counts as the others do (R109). -/
theorem closeEvents_noteAnswer (j : Job) (st : PortStatus) (q : EventQueue) : (j.noteAnswer st .sequenceWord).closeEvents q =
    (if j.faulted = true ∨ st = .fault then
      q.raise { kind := .commitFault, group := some j.group, source := none, epoch := some j.epoch, detail :=
        match j.faultPosition with
          | some (.offset o) => o.setWidth 16
          | some .sequenceWord => 0xFFFF
          | none => if st = .fault then 0xFFFF else 0 }
    else q) := by
  unfold Job.closeEvents
  cases st with
  | okay =>
    rcases hp : j.faultPosition with - | p
    · simp [Job.noteAnswer, jobEvent, hp]
    · cases p <;> simp [Job.noteAnswer, jobEvent, hp, FaultPosition.detail]
  | fault =>
    rcases hp : j.faultPosition with - | p
    · simp [Job.noteAnswer, jobEvent, hp, FaultPosition.detail]
    · cases p <;> simp [Job.noteAnswer, jobEvent, hp, FaultPosition.detail]

/-- The answer to the closing write, at the end of the step (R108, R109). -/
theorem exec_closingWriteResponse {s : State} {j : Job} {q : PortRequest} (st : PortStatus) (hra : s.resetAsserted = false)
    (hrs : s.resetting = none) (hr : s.engine.running = some j) (hp : s.port = some ⟨.closing, q⟩) :
    exec (.closingWriteResponse st) s = .next (settle (closeJob (j.noteAnswer st .sequenceWord) (s.setPort none))) := by
  refine (unlessReset_of_false hra _).trans ((jobAnswer_of_port _ hp hr).trans ?_)
  have hfree : ¬ (s.setPort none).resetting.isSome = true := by rw [State.setPort_resetting, hrs]; decide
  simp only [if_neg hfree]
  rw [afterAnswer_of_free]
  unfold closeJob
  rw [completeImageJob_resetting]
  split <;> exact hrs

/-- Settles O37: the close of the job with its last answer noted. -/
theorem closingCompletes : Obligations.ClosingCompletes := by
  intro s j q x st d raised n hra hrs hr hp hx hk hd hraised hn
  have hraised : raised = (j.noteAnswer st .sequenceWord).closeEvents s.events := by
    subst hd
    exact hraised.trans (closeEvents_noteAnswer j st s.events).symm
  have hn : n = x.committing.elim 0 Committing.stageEntries := hn.trans (stageEntries_eq _).symm
  have hg := (noteAnswer_fields j st .sequenceWord).2.1
  have hx' : (s.setPort none).group (j.noteAnswer st .sequenceWord).group = some x := by rw [hg]; exact hx
  rw [exec_closingWriteResponse st hra hrs hr hp, hraised, hn]
  refine ⟨fun hs => ?_, fun hs hpend => ?_, fun hs => ?_⟩
  · rw [closeJob_of_plain hx' hk hs]; cases st <;> rfl
  · rw [closeJob_of_pending hx' hk hs hpend]; cases st <;> rfl
  · rw [closeJob_of_draining hx' hk hs]; cases st <;> rfl

/-- Settles O39: the capture after the burst, completed by its last one and aborted by a fault. -/
theorem captureBurst : Obligations.CaptureBurst := by
  intro s j q x ws hra hrs hr hp hx hk hb hc
  have hokay := fun data hd => exec_burst_okay (data := data) hra hrs hr hp hx hk hb hd
  refine ⟨hokay, fun data hd hl hact hq => ?last, fun data f hf => ?fault⟩
  case last =>
    have hx' := group_burstTaken j x ws data s
    have htwice : ∀ y : Group, (s.groups.set j.group (some { x with back := .filling (ws ++ data) })).set j.group (some y) =
        s.groups.set j.group (some y) := fun y => Vector.set_set ..
    rw [hokay data hd, settle_lastBurst hrs hc hl]
    refine ⟨fun hs => ?_, fun hs => ?_⟩
    · rw [completeCapture_of_live (j := { j with progress := j.progress + data.length }) (s := (burstTaken j x ws data s).setRunning none)
        hx' hk hs]
      rw [settle_idle (by rfl) (by exact hq) (by exact hact) (by exact hrs)]
      rw [← htwice]
      by_cases hh : x.held = true
      · simp only [if_pos hh]; rfl
      · simp only [if_neg hh]; rfl
    · rw [completeCapture_of_draining (j := { j with progress := j.progress + data.length })
        (s := (burstTaken j x ws data s).setRunning none) hx' hk hs]
      rw [settle_idle (by rfl) (by exact hq) (by exact hact) (by exact hrs)]
      rw [← htwice]
      rfl
  case fault =>
    subst hf
    refine ⟨fun hs => ?_, fun hs => ?_⟩
    · have habort : abortCapture j (s.setPort none) = _ := failCapture_of_live (s := ((s.setPort none).setRunning none).raise _) hx hk hs
      rw [exec_burst_fault data hra hrs hr hp (by rw [habort]; exact hrs), habort]
      rfl
    · have habort : abortCapture j (s.setPort none) = _ :=
        failCapture_of_draining (s := ((s.setPort none).setRunning none).raise _) hx hk hs
      rw [exec_burst_fault data hra hrs hr hp (by rw [habort]; exact hrs), habort]
      rfl

/-- Settles O40: the one job of the group takes the expiry, in each of the engine's three places. -/
theorem marginExpiry : Obligations.MarginExpiry := by
  intro s g hra hnd
  refine ⟨fun j hr hg hb hm => ?running, fun before j after hq hg hb hm => ?queued, fun before j after hl hg hb hm => ?listed,
    fun hno => ?idle⟩
  case idle =>
    have hany : ¬ s.engine.jobs.any (fun j => j.marginRuns g) = true := by
      rintro h
      obtain ⟨j, hj, hm⟩ := List.any_eq_true.mp h
      obtain ⟨hg, hb, he⟩ := marginRuns_iff.mp hm
      rcases hno j hj hg with h | h
      · rw [hb] at h; cases h
      · rw [he] at h; cases h
    exact (unlessReset_of_false hra _).trans (by rw [if_neg hany])
  all_goals have hruns : j.marginRuns g = true := marginRuns_iff.mpr ⟨hg, hb, hm⟩
  case running =>
    have hjobs : s.engine.jobs = [] ++ j :: (s.engine.queue ++ s.engine.marginList) := by rw [jobs_eq, hr]; rfl
    rw [exec_marginExpiry_of_runs hra (by rw [hjobs]; simp) hruns]
    rw [hjobs] at hnd
    have hstill : ∀ k ∈ s.engine.queue ++ s.engine.marginList, k.marginRuns g = false :=
      fun k hk => marginRuns_of_other (hg ▸ others_of_nodup hnd k hk)
    obtain ⟨hnone, hkeep⟩ := filter_marginRuns_of_still fun k hk => hstill k (List.mem_append_right _ hk)
    rw [marginExpired, map_noteMargin_of_still fun k hk => hstill k (List.mem_append_left _ hk), hnone, hkeep, hr, Option.map_some,
      noteMargin_of_runs hruns, List.map_nil, List.append_nil]
    rfl
  case queued =>
    have hjobs : s.engine.jobs = (s.engine.running.toList ++ before) ++ j :: (after ++ s.engine.marginList) := by
      rw [jobs_eq, hq]; simp
    rw [exec_marginExpiry_of_runs hra (by rw [hjobs]; simp) hruns]
    rw [hjobs] at hnd
    have hstill : ∀ k ∈ (s.engine.running.toList ++ before) ++ (after ++ s.engine.marginList), k.marginRuns g = false :=
      fun k hk => marginRuns_of_other (hg ▸ others_of_nodup hnd k hk)
    obtain ⟨hnone, hkeep⟩ := filter_marginRuns_of_still (l := s.engine.marginList) fun k hk => hstill k (by simp [hk])
    have hrun : s.engine.running.map (Job.noteMargin g) = s.engine.running := by
      rcases hr : s.engine.running with - | k
      · rfl
      · simp [Job.noteMargin, hstill k (by simp [hr])]
    rw [marginExpired, hq, List.map_append, List.map_cons, map_noteMargin_of_still (l := before) fun k hk => hstill k (by simp [hk]),
      map_noteMargin_of_still (l := after) fun k hk => hstill k (by simp [hk]), hnone, hkeep, hrun, noteMargin_of_runs hruns,
      List.map_nil, List.append_nil]
    rfl
  case listed =>
    have hjobs : s.engine.jobs = (s.engine.running.toList ++ s.engine.queue ++ before) ++ j :: after := by
      rw [jobs_eq, hl]; simp
    rw [exec_marginExpiry_of_runs hra (by rw [hjobs]; simp) hruns]
    rw [hjobs] at hnd
    have hstill : ∀ k ∈ (s.engine.running.toList ++ s.engine.queue ++ before) ++ after, k.marginRuns g = false :=
      fun k hk => marginRuns_of_other (hg ▸ others_of_nodup hnd k hk)
    obtain ⟨hnone, hkeep⟩ := filter_marginRuns_of_still (l := before) fun k hk => hstill k (by simp [hk])
    obtain ⟨hnone', hkeep'⟩ := filter_marginRuns_of_still (l := after) fun k hk => hstill k (by simp [hk])
    have hrun : s.engine.running.map (Job.noteMargin g) = s.engine.running := by
      rcases hr : s.engine.running with - | k
      · rfl
      · simp [Job.noteMargin, hstill k (by simp [hr])]
    rw [marginExpired, hl, List.filter_append, List.filter_append, List.filter_cons, List.filter_cons, hnone, hkeep, hnone', hkeep',
      map_noteMargin_of_still (l := s.engine.queue) fun k hk => hstill k (by simp [hk]), hrun, hruns]
    simp only [if_true, List.nil_append, List.map_cons, List.map_nil, noteMargin_of_runs hruns, Bool.not_true, Bool.false_eq_true,
      if_false]
    rfl

end Sys2Proof.Machine
end

section
/-! SUPPORT. The effects of the group commands, case by case (R5, R27, R28, R131, R141, R154, R192, R193). -/

namespace Sys2Proof.Machine

open Sys2Proof.Safety

theorem Group.enabled_of_disabled {x : Group} (h : x.state = .disabled) : ¬ x.enabled = true := by
  simp [Group.enabled, h]

theorem Group.enabled_of_ne {x : Group} (h : x.state ≠ .disabled) : x.enabled = true := by
  simp [Group.enabled, h]

theorem Group.safeEntries_eq (x : Group) : x.safeEntries = (x.safeImage.getD []).length := by
  rw [Group.safeEntries]
  cases x.safeImage <;> rfl

/-- A condition on the group of a slot, where every UNDEFINED slot meets it, in its two cases. -/
theorem forall_group_cases {s : State} {g : GroupNo} {p : Group → Prop} (h : ∀ x ∈ s.group g, p x) :
    s.group g = none ∨ ∃ x, s.group g = some x ∧ p x := by
  rcases hx : s.group g with - | x
  · exact .inl rfl
  · exact .inr ⟨x, rfl, h x hx⟩

section
variable {tag b : Byte} {s : State} {g : GroupNo} {x : Group}

theorem deleteGroup_of_disabled (hg : g.val = b.toNat) (hx : s.group g = some x) (hs : x.state = .disabled) :
    deleteGroup tag b s = ((s.clearGroup g).setFreeSafe (s.freeSafe + (x.safeImage.getD []).length)).respond .ok tag [] := by
  rw [deleteGroup, withGroup_of_val tag s _ hg, ← Group.safeEntries_eq]
  simp only [hx, if_neg (Group.enabled_of_disabled hs)]

theorem deleteGroup_of_not_disabled (hg : g.val = b.toNat) (h : ∀ x ∈ s.group g, x.state ≠ .disabled) :
    deleteGroup tag b s = s.respond .wrongState tag [] := by
  rw [deleteGroup, withGroup_of_val tag s _ hg]
  rcases forall_group_cases h with hx | ⟨x, hx, hs⟩
  · simp only [hx]
  · simp only [hx, if_pos (Group.enabled_of_ne hs)]

theorem resumeGroup_of_safe (hg : g.val = b.toNat) (hx : s.group g = some x) (hs : x.state = .safe) (hk : x.record.kind = .output) :
    resumeGroup tag b s = (s.setGroup g { x with state := .live, staleCount := 0, pendingSafe := false }).respond .ok tag [] := by
  rw [resumeGroup, withGroup_of_val tag s _ hg]
  simp only [hx, if_pos (And.intro hs hk)]

theorem resumeGroup_of_not_safe (hg : g.val = b.toNat) (h : ∀ x ∈ s.group g, x.state ≠ .safe ∨ x.record.kind = .input) :
    resumeGroup tag b s = s.respond .wrongState tag [] := by
  rw [resumeGroup, withGroup_of_val tag s _ hg]
  rcases forall_group_cases h with hx | ⟨x, hx, hs⟩
  · simp only [hx]
  · have hne : ¬ (x.state = .safe ∧ x.record.kind = .output) := by
      rintro ⟨h1, h2⟩
      rcases hs with hs | hs
      · exact hs h1
      · rw [h2] at hs; cases hs
    simp only [hx, if_neg hne]

/-! ### DISABLE_GROUP -/

theorem disableGroup_of_not_enabled (hg : g.val = b.toNat) (h : ∀ x ∈ s.group g, x.state = .disabled) :
    disableGroup tag b s = s.respond .wrongState tag [] := by
  rw [disableGroup, withGroup_of_val tag s _ hg]
  rcases forall_group_cases h with hx | ⟨x, hx, hs⟩
  · simp only [hx]
  · simp only [hx, hs]

theorem disableGroup_of_draining (hg : g.val = b.toNat) (hx : s.group g = some x) (hs : x.state = .draining) :
    disableGroup tag b s = s.respond .pending tag [] := by
  rw [disableGroup, withGroup_of_val tag s _ hg]
  simp only [hx, hs]

theorem disableGroup_of_output (hg : g.val = b.toNat) (hx : s.group g = some x) (hs : x.state = .live ∨ x.state = .safe)
    (hk : x.record.kind = .output) : disableGroup tag b s = disableOutput tag g x s := by
  rw [disableGroup, withGroup_of_val tag s _ hg]
  rcases hs with hs | hs <;> simp only [hx, hs, hk]

theorem disableGroup_of_input (hg : g.val = b.toNat) (hx : s.group g = some x) (hs : x.state = .live)
    (hk : x.record.kind = .input) : disableGroup tag b s = disableInput tag g x s := by
  rw [disableGroup, withGroup_of_val tag s _ hg]
  simp only [hx, hs, hk]

/-- An output group with no job in flight is DISABLED at once (R28). -/
theorem disableOutput_of_idle (h : x.committing = none) : disableOutput tag g x s =
    (becomeDisabled g { x with filling := none, armed := none, pendingSafe := false }
      (s.returnStage ((x.filling.elim 0 (fun f => f.entries.length)) + x.armed.elim 0 List.length))).respond .ok tag [] := by
  rw [disableOutput, if_neg (by simp [Group.jobInFlight, h])]

theorem disableOutput_of_job (h : x.committing ≠ none) : disableOutput tag g x s =
    ((s.returnStage ((x.filling.elim 0 (fun f => f.entries.length)) + x.armed.elim 0 List.length)).setGroup g
      { x with filling := none, armed := none, pendingSafe := false, state := .draining }).respond .pending tag [] := by
  rw [disableOutput, if_pos (show x.jobInFlight = true from Option.isSome_iff_ne_none.mpr h)]

/-! ### ENABLE_GROUP -/

theorem enableGroup_of_not_disabled (hg : g.val = b.toNat) (h : ∀ x ∈ s.group g, x.state ≠ .disabled) :
    enableGroup tag b s = s.respond .wrongState tag [] := by
  rw [enableGroup, withGroup_of_val tag s _ hg]
  rcases forall_group_cases h with hx | ⟨x, hx, hs⟩
  · simp only [hx]
  · simp only [hx, if_pos (Group.enabled_of_ne hs)]

theorem enableGroup_of_output (hg : g.val = b.toNat) (hx : s.group g = some x) (hs : x.state = .disabled)
    (hk : x.record.kind = .output) :
    enableGroup tag b s = withdrawRun x.record ((s.setGroup g x.enableOutput).respond .ok tag []) := by
  rw [enableGroup, withGroup_of_val tag s _ hg]
  simp only [hx, if_neg (Group.enabled_of_disabled hs), hk]

theorem enableGroup_of_input (hg : g.val = b.toNat) (hx : s.group g = some x) (hs : x.state = .disabled)
    (hk : x.record.kind = .input) : enableGroup tag b s =
      if s.enabledInputWords + x.record.length ≤ 1024 then
        ((s.setGroup g x.enableInput).setFreeSnapshot (s.freeSnapshot - 2 * x.record.length)).respond .ok tag []
      else s.respond .noSpace tag [] := by
  rw [enableGroup, withGroup_of_val tag s _ hg]
  simp only [hx, if_neg (Group.enabled_of_disabled hs), hk]
  rfl

end

/-! ### The cut of a write run that has not been issued (log 29) -/

theorem writeWaits_iff {s : State} {a : ActiveRequest} :
    s.writeWaits a = true ↔ a.request.dir = .write ∧ ∀ u ∈ s.port, u.purpose ≠ .run := by
  rw [State.writeWaits, Bool.and_eq_true, decide_eq_true_eq]
  cases s.port <;> simp

theorem withdrawRun_of_untouched {r : GroupRecord} {s : State} (h : ∀ a ∈ s.host.active, a.request.dir = .write →
    (∀ u ∈ s.port, u.purpose ≠ .run) → ∀ k, k < a.run.length → ¬ r.touches (a.runAddr k).toNat = true) : withdrawRun r s = s := by
  rcases withdrawRun_cases r s with e | ⟨a, k, ha, hw, hk, ht, -⟩
  · exact e
  · obtain ⟨hd, hu⟩ := writeWaits_iff.mp hw
    exact absurd ht (h a ha hd hu k hk)

theorem withdrawRun_of_touched {r : GroupRecord} {s : State} {a : ActiveRequest} {k : Nat} (ha : s.host.active = some a)
    (hd : a.request.dir = .write) (hu : ∀ u ∈ s.port, u.purpose ≠ .run) (hk : k < a.run.length)
    (ht : r.touches (a.runAddr k).toNat = true) (hfirst : ∀ l, l < k → ¬ r.touches (a.runAddr l).toNat = true) :
    withdrawRun r s = settle (runHost (s.setActive (some (a.cutRun k)))) := by
  have hfind : (List.range a.run.length).find? (fun k => r.touches (a.runAddr k).toNat) = some k :=
    List.find?_range_eq_some.mpr ⟨ht, List.mem_range.mpr hk, fun l hl => by simpa using hfirst l hl⟩
  simp only [withdrawRun, ha, if_pos (writeWaits_iff.mpr ⟨hd, hu⟩), hfind]

/-- A request that waits, or stands at a gap, is left as it is by the host path's going on (R55). -/
theorem runHost_of_standing {s : State} {a : ActiveRequest} (ha : s.host.active = some a) (h : a.wait ≠ .nothing ∨ a.taken ∈ a.gaps) :
    runHost s = s := by
  have htake : ∀ n, takeWords n s = s := by
    intro n
    cases n with
    | zero => rfl
    | succ n => simp only [takeWords, ha, if_pos h]
  unfold runHost
  split
  · rfl
  · simp only [pumpHost, htake, ha]

/-- A request that goes on: it stands at its gap, or goes on as an empty queue lets it (log 8). -/
theorem goesOn_eq {a : ActiveRequest} {s : State} (hra : s.resetAsserted = false) (hrs : s.resetting = none)
    (hw : a.wait = .nothing) : goesOn a s = settle (runHost (withRequest a s)) := by
  unfold goesOn
  split
  · next h => rw [runHost_of_standing (s := withRequest a s) rfl (.inr h)]
  · next h =>
    have hpass : ActiveRequest.passGap { a with gaps := a.taken :: a.gaps } = a := by
      have hgaps : (a.taken :: a.gaps).filter (fun k => k != a.taken) = a.gaps := by
        rw [List.filter_cons_of_neg (by simp)]
        exact List.filter_eq_self.mpr fun k hk => bne_iff_ne.mpr fun e => h (e ▸ hk)
      rw [ActiveRequest.passGap, hgaps]
    have hgo : ¬ ((withRequest { a with gaps := a.taken :: a.gaps } s).resetAsserted ||
        (withRequest { a with gaps := a.taken :: a.gaps } s).resetting.isSome || decide (a.wait ≠ .nothing)) = true := by
      simp [withRequest, hra, hrs, hw]
    have htick : tick (withRequest { a with gaps := a.taken :: a.gaps } s) =
        settle (runHost ((withRequest { a with gaps := a.taken :: a.gaps } s).setActive
          (some (ActiveRequest.passGap { a with gaps := a.taken :: a.gaps })))) := if_neg hgo
    rw [htick, hpass]
    rfl

end Sys2Proof.Machine
end

section
/-! PROOFS. The obligations about DELETE_GROUP, RESUME_GROUP, and, outside the namespace of the effects they are named like,
DISABLE_GROUP and ENABLE_GROUP. -/

namespace Sys2Proof.Machine

open Sys2Proof.Safety

/-- Settles O44: each command by the state of the slot. -/
theorem deleteAndResume : Obligations.DeleteAndResume := by
  intro tag b s hs
  refine ⟨fun hb => ⟨takeCommand_eq_answered hs (withGroup_of_beyond tag _ _ hb), takeCommand_eq_answered hs (withGroup_of_beyond tag _ _ hb)⟩,
    fun g hg => ⟨fun x hx hd => ?_, fun h => ?_, fun x hx hsafe hk => ?_, fun h => ?_⟩⟩
  · exact takeCommand_of_effect hs (deleteGroup_of_disabled hg hx hd) rfl
  · exact takeCommand_eq_answered hs (deleteGroup_of_not_disabled hg h)
  · exact takeCommand_of_effect hs (resumeGroup_of_safe hg hx hsafe hk) rfl
  · exact takeCommand_eq_answered hs (resumeGroup_of_not_safe hg h)

end Sys2Proof.Machine

namespace Sys2Proof

open Sys2Proof.Machine Sys2Proof.Safety

/-- Settles O43: the command by the state and kind of the group, and by what is in flight. -/
theorem disableGroup : Obligations.DisableGroup := by
  intro tag b s hs
  refine ⟨fun hb => takeCommand_eq_answered hs (withGroup_of_beyond tag _ _ hb), fun g hg => ⟨fun h => ?_, fun x hx =>
    ⟨fun hd => ?draining, fun n hst hk hn => ?output, fun hl hk => ?input⟩⟩⟩
  · exact takeCommand_eq_answered hs (disableGroup_of_not_enabled hg h)
  case draining => exact takeCommand_eq_answered hs (disableGroup_of_draining hg hx hd)
  case output =>
    subst hn
    have heffect := disableGroup_of_output (tag := tag) (s := s.frameEnds .complete (encodeFrame (.disableGroup tag b))) hg hx hst hk
    exact ⟨fun hc => takeCommand_of_effect hs (heffect.trans (disableOutput_of_idle hc)) rfl,
      fun hc => takeCommand_of_effect hs (heffect.trans (disableOutput_of_job hc)) rfl⟩
  case input =>
    have heffect := disableGroup_of_input (tag := tag) (s := s.frameEnds .complete (encodeFrame (.disableGroup tag b))) hg hx hl hk
    refine ⟨fun hc => ?_, fun hc => ⟨fun p hp => ?_, fun hp => ?_⟩⟩
    · exact takeCommand_of_effect hs (heffect.trans (if_neg (by simp [hc]))) rfl
    · refine takeCommand_of_effect hs (heffect.trans (if_pos hc)) ?_
      simp only [hp]
      rfl
    · refine takeCommand_of_effect hs (heffect.trans (if_pos hc)) ?_
      rcases x with ⟨r, st, fi, ar, co, sa, pe, sc, sq, coal, rej, dam, beh, fr, back, cap, held, hold⟩
      cases back
      · rfl
      · rfl
      · cases hp

/-- Settles O42: the command by the state and kind of the group, and the cut of a write run by its first word of the group. -/
theorem enableGroup : Obligations.EnableGroup := by
  intro tag b s hs
  refine ⟨fun hb => takeCommand_eq_answered hs (withGroup_of_beyond tag _ _ hb), fun g hg => ⟨fun h => ?_, fun x hx hd =>
    ⟨fun t touched hk ht htouch => ?output, fun hk hle => ?input, fun hk hlt => ?noSpace⟩⟩⟩
  · exact takeCommand_eq_answered hs (enableGroup_of_not_disabled hg h)
  case input =>
    have heffect := enableGroup_of_input (tag := tag) (s := s.frameEnds .complete (encodeFrame (.enableGroup tag b))) hg hx hd hk
    exact takeCommand_of_effect hs (heffect.trans (if_pos hle)) rfl
  case noSpace =>
    have heffect := enableGroup_of_input (tag := tag) (s := s.frameEnds .complete (encodeFrame (.enableGroup tag b))) hg hx hd hk
    exact takeCommand_eq_answered hs (heffect.trans (if_neg (Nat.not_le.mpr hlt)))
  case output =>
    have heffect := enableGroup_of_output (tag := tag) (s := s.frameEnds .complete (encodeFrame (.enableGroup tag b))) hg hx hd hk
    have htouches : ∀ a k, touched a k ↔ x.record.touches (a.runAddr k).toNat = true := by
      intro a k
      subst htouch
      rw [touches_iff]
      simp [GroupRecord.covers, GroupRecord.seqWord, GroupRecord.baseWord, ActiveRequest.runAddr]
    have hexec : exec (.enableGroup tag b) s = .next (withdrawRun x.record t) := by
      obtain ⟨hra, hrs, hrecv⟩ := hs
      subst ht
      exact (takeFrame_of_ready _ _ _ hra hrs hrecv).trans (congrArg _ heffect)
    have ⟨hra, hrs, hhost, hport⟩ : t.resetAsserted = false ∧ t.resetting = none ∧ t.host = s.host ∧ t.port = s.port := by
      subst ht
      exact ⟨hs.1, hs.2.1, rfl, rfl⟩
    rw [hexec]
    refine ⟨fun h => ?_, fun a k r ha hw hu hk hta hfirst hr => ?_⟩
    · rw [withdrawRun_of_untouched]
      intro a ha hw hu k hk htk
      exact h a (hhost ▸ ha) hw (hport ▸ hu) k hk ((htouches a k).mpr htk)
    · have hcut : withdrawRun x.record t = settle (runHost (withRequest r t)) := by
        rw [withdrawRun_of_touched (hhost ▸ ha) hw (hport ▸ hu) hk ((htouches a k).mp hta)
          fun l hl htl => hfirst l hl ((htouches a l).mpr htl), hr]
        rfl
      rw [hcut]
      refine ⟨fun hstand => ?_, fun hwait hk0 => ?_⟩
      · rw [runHost_of_standing (s := withRequest r t) rfl]
        subst hr
        by_cases hwait : a.wait = .nothing
        · right
          simp [hwait]
        · left
          simpa [hstand.resolve_left hwait] using hwait
      · rw [goesOn_eq hra hrs]
        subst hr
        simp [hk0]

end Sys2Proof
end

section
/-! SUPPORT. The checks of DEFINE_GROUP as the fields satisfy them, in byte addresses (R3, R191). -/

namespace Sys2Proof.Machine

open Sys2Proof.Safety

theorem isFlag_iff {b : Byte} : isFlag b = true ↔ b.toNat ≤ 1 := by
  rw [isFlag, Bool.or_eq_true, decide_eq_true_eq, decide_eq_true_eq, flag_iff_le_one]

theorem rangeFieldsValid_iff {f : GroupFields} : rangeFieldsValid f = true ↔
    (f.kind.toNat ≤ 1 ∧ 1 ≤ f.length.toNat ∧ f.length.toNat ≤ 256 ∧ f.source.toNat ≤ 3) ∧
      f.base.toNat % 4 = 0 ∧ f.base.toNat + 4 * f.length.toNat ≤ 67108864 := by
  have hk := flag_iff_le_one (b := f.kind)
  simp only [rangeFieldsValid, Bool.and_eq_true, Bool.or_eq_true, decide_eq_true_eq, hk, Nat.lt_succ_iff, and_assoc]
  rfl

/-- The checks of the kind's own fields, each kind for itself. -/
theorem kindFieldsValid_iff {f : GroupFields} (hk : f.kind.toNat ≤ 1) : kindFieldsValid f = true ↔
    (f.kind = 0 → f.sealOffset.toNat < f.length.toNat ∧ f.policy.toNat ≤ 1 ∧ f.seqPresent.toNat ≤ 1 ∧ f.bbm.toNat ≤ 1 ∧
      f.latch.toNat ≤ 1) ∧
    (f.kind = 1 → f.stampPresent.toNat ≤ 1 ∧ (f.stampPresent = 1 → f.stampOffset.toNat < f.length.toNat)) := by
  unfold kindFieldsValid
  rcases flag_iff_le_one.mpr hk with h | h
  · simp [h, isFlag_iff, and_assoc]
  · rw [if_neg (by rw [h]; decide)]
    simp only [h, Bool.and_eq_true, Bool.or_eq_true, decide_eq_true_eq, isFlag_iff, true_implies]
    refine ⟨fun ⟨hf, ho⟩ => ⟨nofun, hf, fun h1 => ho.resolve_left (by rw [h1]; decide)⟩, fun ⟨_, hf, ho⟩ => ⟨hf, ?_⟩⟩
    exact (flag_iff_le_one.mpr hf).imp id ho

theorem recordOfFields_seqAddr {f : GroupFields} {a : BitVec 32} :
    (recordOfFields f).seqAddr = some a ↔ f.kind = 0 ∧ f.seqPresent = 1 ∧ f.seqAddr = a := by
  unfold recordOfFields
  split
  · next h =>
    simp only [h, true_and]
    split
    · next hp => simp [hp]
    · next hp => exact iff_of_false nofun fun h => hp h.1
  · next h => exact iff_of_false nofun fun e => h e.1

/-- A record's sequence word, when it has one, is in no range exactly when its address is not (R3). -/
theorem covers_seqWord_iff {r q : GroupRecord} (hr : RecordOk r) (hq : q.seqValid = true) :
    q.seqWord.elim false r.covers = false ↔ ∀ a ∈ q.seqAddr, ¬ InRange r.base.toNat r.length a.toNat := by
  have hword := seqWord_iff hq
  rcases hs : q.seqAddr with - | a
  · simp [GroupRecord.seqWord, hs]
  · have h4 : a.toNat = 4 * (a.toNat / 4) := by
      obtain ⟨b, hb, he⟩ := (hword (a.toNat / 4)).mp (by rw [GroupRecord.seqWord, hs]; rfl)
      rw [hs] at hb
      cases hb
      exact he
    rw [GroupRecord.seqWord, hs, Option.map_some, Option.elim_some, ← Bool.not_eq_true, covers_iff hr, ← h4]
    simp

/-- Two records share a sequence word exactly when they share its address. -/
theorem seqWord_apart_iff {r q : GroupRecord} (hr : r.seqValid = true) (hq : q.seqValid = true) :
    (r.seqWord.isNone = true ∨ r.seqWord ≠ q.seqWord) ↔ ∀ a ∈ r.seqAddr, q.seqAddr ≠ some a := by
  rcases hs : r.seqWord with - | n
  · have hnone : r.seqAddr = none := Option.map_eq_none_iff.mp hs
    simp [hnone]
  · obtain ⟨a, ha, ha4⟩ := (seqWord_iff hr n).mp hs
    simp only [Option.isNone_some, Bool.false_eq_true, false_or, ha, Option.mem_some_iff, forall_eq']
    refine not_congr ⟨fun h => ?_, fun h => ?_⟩
    · obtain ⟨b, hb, hb4⟩ := (seqWord_iff hq n).mp h.symm
      rw [hb, BitVec.eq_of_toNat_eq (hb4.trans ha4.symm)]
    · exact ((seqWord_iff hq n).mpr ⟨a, h, ha4⟩).symm

/-- Two ranges share no word exactly when they share no word address in bytes (R3, check 6). -/
theorem overlaps_iff {r q : GroupRecord} (hr : RecordOk r) (hq : RecordOk q) :
    r.overlaps q = false ↔ ∀ a, InRange r.base.toNat r.length a → ¬ InRange q.base.toNat q.length a := by
  obtain ⟨hr4, hr1, -⟩ := hr
  obtain ⟨hq4, hq1, -⟩ := hq
  have hover : r.overlaps q = false ↔
      ¬ (r.base.toNat / 4 < q.base.toNat / 4 + q.length ∧ q.base.toNat / 4 < r.base.toNat / 4 + r.length) := by
    rw [← Bool.not_eq_true, GroupRecord.overlaps, Bool.and_eq_true, decide_eq_true_eq, decide_eq_true_eq]
    rfl
  rw [hover]
  constructor
  · rintro h a ⟨i, hi, rfl⟩ ⟨j, hj, he⟩
    omega
  · intro h
    rintro ⟨hrq, hqr⟩
    have hfirst : InRange q.base.toNat q.length (max r.base.toNat q.base.toNat) :=
      ⟨(max r.base.toNat q.base.toNat - q.base.toNat) / 4, by omega, by omega⟩
    exact h _ ⟨(max r.base.toNat q.base.toNat - r.base.toNat) / 4, by omega, by omega⟩ hfirst

/-- The checks 6 to 8 of R3 against one other record. -/
theorem clearOf_iff {r q : GroupRecord} (hr : RecordOk r) (hrs : r.seqValid = true) (hq : RecordOk q) (hqs : q.seqValid = true) :
    r.clearOf q = true ↔ (∀ a, InRange r.base.toNat r.length a → ¬ InRange q.base.toNat q.length a) ∧
      (∀ a ∈ q.seqAddr, ¬ InRange r.base.toNat r.length a.toNat) ∧
      ∀ a ∈ r.seqAddr, ¬ InRange q.base.toNat q.length a.toNat ∧ q.seqAddr ≠ some a := by
  rw [forall₂_and]
  simp only [GroupRecord.clearOf, Bool.and_eq_true, Bool.or_eq_true, Bool.not_eq_true', decide_eq_true_eq, overlaps_iff hr hq,
    covers_seqWord_iff hr hqs, covers_seqWord_iff hq hrs, seqWord_apart_iff hrs hqs, and_assoc]

/-- A statement about the sequence address of a definition's record, in the fields (R2). -/
theorem forall_recordOfFields_seqAddr {f : GroupFields} {p : BitVec 32 → Prop} :
    (∀ a ∈ (recordOfFields f).seqAddr, p a) ↔ (f.kind = 0 → f.seqPresent = 1 → p f.seqAddr) :=
  ⟨fun h hk hp => h _ (recordOfFields_seqAddr.mpr ⟨hk, hp, rfl⟩), fun h a ha => by
    obtain ⟨hk, hp, rfl⟩ := recordOfFields_seqAddr.mp ha
    exact h hk hp⟩

theorem seqValid_iff {r : GroupRecord} : r.seqValid = true ↔
    ∀ a ∈ r.seqAddr, a.toNat % 4 = 0 ∧ a.toNat < 67108864 ∧ r.covers (a.toNat / 4) = false := by
  unfold GroupRecord.seqValid
  rcases r.seqAddr with - | a
  · simp
  · simp only [Bool.and_eq_true, decide_eq_true_eq, Bool.not_eq_true', Option.mem_some_iff, forall_eq', and_assoc]
    rfl

/-- The check 5 of R3 in the fields. -/
theorem recordOfFields_seqValid_iff {f : GroupFields} (hr : RecordOk (recordOfFields f)) : (recordOfFields f).seqValid = true ↔
    (f.kind = 0 → f.seqPresent = 1 → f.seqAddr.toNat % 4 = 0 ∧ f.seqAddr.toNat < 67108864 ∧
      ¬ InRange f.base.toNat f.length.toNat f.seqAddr.toNat) := by
  rw [seqValid_iff, forall_recordOfFields_seqAddr]
  refine forall_congr' fun _ => forall_congr' fun _ => and_congr_right fun h4 => and_congr_right fun _ => ?_
  rw [← Bool.not_eq_true, covers_iff hr, recordOfFields_base, recordOfFields_length, Nat.mul_div_cancel' (Nat.dvd_of_mod_eq_zero h4)]

/-- The checks 6 to 8 of R3 in the fields, against every other defined group. -/
theorem recordOfFields_clearOfOthers_iff {g : GroupNo} {f : GroupFields} {s : State} (h : RangeLaw s)
    (hok : RecordOk (recordOfFields f)) (hv : (recordOfFields f).seqValid = true) :
    s.clearOfOthers g (recordOfFields f) = true ↔ ∀ h : GroupNo, h ≠ g → ∀ y ∈ s.group h,
      (∀ a, InRange f.base.toNat f.length.toNat a → ¬ InRange y.record.base.toNat y.record.length a) ∧
      (∀ a ∈ y.record.seqAddr, ¬ InRange f.base.toNat f.length.toNat a.toNat) ∧
      (f.kind = 0 → f.seqPresent = 1 →
        ¬ InRange y.record.base.toNat y.record.length f.seqAddr.toNat ∧ y.record.seqAddr ≠ some f.seqAddr) := by
  rw [clearOfOthers_iff]
  refine forall_congr' fun k => forall_congr' fun _ => forall_congr' fun y => forall_congr' fun hy => ?_
  obtain ⟨hyok, hyv⟩ := h.1 k y hy
  rw [clearOf_iff hok hv hyok hyv, forall_recordOfFields_seqAddr, recordOfFields_base, recordOfFields_length]

/-- What the model checks of a definition is what R3 and R191 check. -/
theorem groupFieldsOk_iff {g : GroupNo} {f : GroupFields} {s : State} (h : RangeLaw s) : GroupFieldsOk g f s ↔
    (rangeFieldsValid f && kindFieldsValid f && (recordOfFields f).seqValid && s.clearOfOthers g (recordOfFields f)) = true := by
  simp only [Bool.and_eq_true]
  refine ⟨fun ⟨hfields, hrange, hout, hin, hseq, hothers⟩ => ?_, fun ⟨⟨⟨hr, hk⟩, hv⟩, hc⟩ => ?_⟩
  · have hr := rangeFieldsValid_iff.mpr ⟨hfields, hrange⟩
    have hk := (kindFieldsValid_iff hfields.1).mpr ⟨hout, hin⟩
    have hok := recordOk_of_checks hr hk
    have hv := (recordOfFields_seqValid_iff hok).mpr hseq
    exact ⟨⟨⟨hr, hk⟩, hv⟩, (recordOfFields_clearOfOthers_iff h hok hv).mpr hothers⟩
  · have hok := recordOk_of_checks hr hk
    obtain ⟨hfields, hrange⟩ := rangeFieldsValid_iff.mp hr
    obtain ⟨hout, hin⟩ := (kindFieldsValid_iff hfields.1).mp hk
    exact ⟨hfields, hrange, hout, hin, (recordOfFields_seqValid_iff hok).mp hv, (recordOfFields_clearOfOthers_iff h hok hv).mp hc⟩

/-- The record of accepted fields (R191, log 20). -/
theorem recordOfFields_eq {f : GroupFields} (hk : f.kind.toNat ≤ 1) : recordOfFields f = storedGroup f := by
  unfold recordOfFields storedGroup
  rcases flag_iff_le_one.mpr hk with h | h
  · simp [h]
  · simp [h]

section
variable {tag : Byte} {f : GroupFields} {s : State} {g : GroupNo}

theorem defineGroup_of_enabled (hg : g.val = f.group.toNat) (h : ∃ x ∈ s.group g, x.state ≠ .disabled) :
    defineGroup tag f s = s.respond .wrongState tag [] := by
  obtain ⟨x, hx, hs⟩ := h
  have hdef : ¬ s.definable g = true := by
    rw [State.definable, Option.mem_def.mp hx, Option.elim_some, Group.enabled_of_ne hs]
    decide
  rw [defineGroup, withGroup_of_val tag s _ hg, if_neg hdef]

theorem definable_of_disabled (h : ∀ x ∈ s.group g, x.state = .disabled) : s.definable g = true := by
  rcases forall_group_cases h with hx | ⟨x, hx, hs⟩
  · simp [State.definable, hx]
  · simp [State.definable, hx, Group.enabled_of_disabled hs]

theorem defineGroup_of_bad (hg : g.val = f.group.toNat) (hd : ∀ x ∈ s.group g, x.state = .disabled) (hr : RangeLaw s)
    (h : ¬ GroupFieldsOk g f s) : defineGroup tag f s = s.respond .badArgument tag [] := by
  rw [defineGroup, withGroup_of_val tag s _ hg, if_pos (definable_of_disabled hd), if_neg (by rwa [← groupFieldsOk_iff hr])]

theorem defineGroup_of_good (hg : g.val = f.group.toNat) (hd : ∀ x ∈ s.group g, x.state = .disabled) (hr : RangeLaw s)
    (h : GroupFieldsOk g f s) : defineGroup tag f s =
      ((s.setGroup g (Group.defined (storedGroup f))).setFreeSafe (s.freeSafe + s.slotSafeEntries g)).respond .ok tag [] := by
  rw [defineGroup, withGroup_of_val tag s _ hg, if_pos (definable_of_disabled hd), if_pos ((groupFieldsOk_iff hr).mp h),
    recordOfFields_eq h.1.1]

theorem slotSafeEntries_eq (s : State) (g : GroupNo) : s.slotSafeEntries g = (match s.group g with
    | some x => (x.safeImage.getD []).length
    | none => 0) := by
  rw [State.slotSafeEntries]
  rcases s.group g with - | x
  · rfl
  · exact x.safeEntries_eq

end

/-! ### The loads of LOAD_SAFE, in order (R133, R135) -/

theorem eraseDups_of_nodup {α : Type} [BEq α] [LawfulBEq α] : ∀ {l : List α}, l.Nodup → l.eraseDups = l
  | [], _ => rfl
  | a :: l, h => by
    obtain ⟨ha, hl⟩ := List.nodup_cons.mp h
    have hkeep : l.filter (fun b => !b == a) = l :=
      List.filter_eq_self.mpr fun b hb => by simpa using fun e : b = a => ha (e ▸ hb)
    rw [List.eraseDups_cons, hkeep, eraseDups_of_nodup hl]

/-- An element that stands before is dropped by the removal of duplicates. -/
theorem eraseDups_append_cons_of_mem {α : Type} [BEq α] [LawfulBEq α] {l l' : List α} {a : α} (h : a ∈ l) :
    (l ++ a :: l').eraseDups = (l ++ l').eraseDups := by
  rw [List.eraseDups_append, List.eraseDups_append]
  have hdrop : (a :: l').removeAll l = l'.removeAll l := List.filter_cons_of_neg (by simpa using h)
  rw [hdrop]

/-- The offsets of a loaded image: those it held and those of the loads, each once and at its first place (R135). -/
theorem applyLoads_offsets {img loads : List SafeEntry} (h : (img.map SafeEntry.offset).Nodup) :
    (applyLoads img loads).map SafeEntry.offset = ((img ++ loads).map SafeEntry.offset).eraseDups := by
  induction loads generalizing img with
  | nil => rw [List.append_nil, eraseDups_of_nodup h]; rfl
  | cons e loads ih =>
    rw [applyLoads_cons, ih (img := loadEntry img e) (applyLoads_nodup [e] h), List.map_append, List.map_append, loadEntry_offsets, List.map_cons]
    split
    · next hmem => rw [eraseDups_append_cons_of_mem hmem]
    · next hnew => rw [List.append_assoc, List.singleton_append]

/-- The offsets held keep their places, and the new ones follow in the order of the loads (R135). -/
theorem applyLoads_added (img loads : List SafeEntry) :
    ∃ added, (applyLoads img loads).map SafeEntry.offset = img.map SafeEntry.offset ++ added ∧
      added.Sublist (loads.map SafeEntry.offset) := by
  induction loads generalizing img with
  | nil => exact ⟨[], (List.append_nil _).symm, List.nil_sublist _⟩
  | cons e loads ih =>
    obtain ⟨added, he, hsub⟩ := ih (loadEntry img e)
    rw [loadEntry_offsets] at he
    rw [applyLoads_cons, List.map_cons]
    split at he
    · exact ⟨added, he, hsub.cons _⟩
    · exact ⟨e.offset :: added, by rw [he, List.append_assoc, List.singleton_append], hsub.cons_cons _⟩

/-- One load sets the word of its offset and of no other (R133). -/
theorem find?_loadEntry (img : List SafeEntry) (e : SafeEntry) (off : Byte) :
    (loadEntry img e).find? (fun x => x.offset == off) =
      if e.offset = off then some e else img.find? (fun x => x.offset == off) := by
  have hset : ∀ img : List SafeEntry, (img.map (fun x => if x.offset = e.offset then { x with data := e.data } else x)).find?
      (fun x => x.offset == off) =
        if e.offset = off then (if img.any (fun x => x.offset == e.offset) then some e else none)
        else img.find? (fun x => x.offset == off) := by
    intro img
    induction img with
    | nil => simp
    | cons x img ih =>
      rw [List.map_cons, List.any_cons]
      by_cases hx : x.offset = e.offset
      · have hload : ({ x with data := e.data } : SafeEntry) = e := by rw [hx]
        rw [if_pos hx, hload]
        by_cases ho : e.offset = off
        · rw [List.find?_cons_of_pos (by simpa using ho), if_pos ho]
          simp [hx]
        · rw [List.find?_cons_of_neg (by simpa using ho), List.find?_cons_of_neg (by simpa [hx] using ho), ih, if_neg ho, if_neg ho]
      · rw [if_neg hx]
        by_cases ho : e.offset = off
        · rw [List.find?_cons_of_neg (by simpa using fun e' => hx (e'.trans ho.symm)), ih, if_pos ho, if_pos ho]
          simp [hx]
        · rw [if_neg ho]
          by_cases hxo : x.offset = off
          · rw [List.find?_cons_of_pos (by simpa using hxo), List.find?_cons_of_pos (by simpa using hxo)]
          · rw [List.find?_cons_of_neg (by simpa using hxo), List.find?_cons_of_neg (by simpa using hxo), ih, if_neg ho]
  unfold loadEntry
  by_cases h : img.any (fun x => x.offset == e.offset) = true
  · rw [if_pos h, hset, if_pos h]
  · rw [if_neg h, List.find?_append]
    by_cases ho : e.offset = off
    · have hnone : img.find? (fun x => x.offset == off) = none := by
        rw [← ho]
        simpa using h
      simp [ho, hnone]
    · simp [ho]

/-- The last load of an offset gives its word (R135). -/
theorem find?_applyLoads (img loads : List SafeEntry) (off : Byte) :
    (applyLoads img loads).find? (fun e => e.offset == off) =
      (loads.reverse.find? (fun e => e.offset == off)).or (img.find? (fun e => e.offset == off)) := by
  induction loads generalizing img with
  | nil => rfl
  | cons e loads ih =>
    rw [applyLoads_cons, ih, find?_loadEntry, List.reverse_cons, List.find?_append, Option.or_assoc]
    by_cases ho : e.offset = off <;> simp [ho]

section
variable {tag b first : Byte} {loads : List SafeEntry} {s : State} {g : GroupNo} {x : Group}

theorem loadSafe_of_flag (hg : g.val = b.toNat) (hf : first.toNat ≤ 1) :
    loadSafe tag b first loads s = loadSafeInto tag g first loads s := by
  rw [loadSafe, withGroup_of_val tag s _ hg, if_pos (isFlag_iff.mpr hf)]

theorem loadSafe_of_bad (h : 31 < b.toNat ∨ 1 < first.toNat) :
    loadSafe tag b first loads s = s.respond .badArgument tag [] := by
  by_cases hb : 31 < b.toNat
  · exact withGroup_of_beyond tag _ _ hb
  · rw [loadSafe, withGroup_of_val (g := ⟨b.toNat, by omega⟩) tag s _ rfl, if_neg]
    rw [isFlag_iff]
    exact Nat.not_le.mpr (h.resolve_left hb)

theorem loadSafeInto_of_absent (hx : s.group g = none) : loadSafeInto tag g first loads s = s.respond .wrongState tag [] := by
  simp only [loadSafeInto, hx]

theorem loadSafeInto_of_input (hx : s.group g = some x) (hk : x.record.kind = .input) :
    loadSafeInto tag g first loads s = s.respond .badArgument tag [] := by
  simp only [loadSafeInto, hx, if_pos hk]

theorem loadSafeInto_of_enabled (hx : s.group g = some x) (hk : x.record.kind = .output) (hs : x.state ≠ .disabled) :
    loadSafeInto tag g first loads s = s.respond .wrongState tag [] := by
  have hout : ¬ x.record.kind = .input := by rw [hk]; nofun
  simp only [loadSafeInto, hx, if_neg hout, if_pos (Group.enabled_of_ne hs)]

theorem loadSafeInto_of_beyond (hx : s.group g = some x) (hk : x.record.kind = .output) (hs : x.state = .disabled)
    (hl : ∃ l ∈ loads, x.record.length ≤ l.offset.toNat) :
    loadSafeInto tag g first loads s = s.respond .badArgument tag [] := by
  have hout : ¬ x.record.kind = .input := by rw [hk]; nofun
  have hany : loads.any (fun l => decide (x.record.length ≤ l.offset.toNat)) = true := by simpa using hl
  simp only [loadSafeInto, hx, if_neg hout, if_neg (Group.enabled_of_disabled hs), if_pos hany]

theorem loadSafeInto_of_loads (hx : s.group g = some x) (hk : x.record.kind = .output) (hs : x.state = .disabled)
    (hl : ∀ l ∈ loads, l.offset.toNat < x.record.length) : loadSafeInto tag g first loads s =
      if (loadedImage x first loads).length ≤ s.freeSafe + (x.safeImage.getD []).length then
        ((s.setGroup g { x with safeImage := some (loadedImage x first loads) }).setFreeSafe
          (s.freeSafe + (x.safeImage.getD []).length - (loadedImage x first loads).length)).respond .ok tag []
      else s.respond .noSpace tag [] := by
  have hout : ¬ x.record.kind = .input := by rw [hk]; nofun
  have hany : ¬ loads.any (fun l => decide (x.record.length ≤ l.offset.toNat)) = true := by simpa using hl
  simp only [loadSafeInto, hx, if_neg hout, if_neg (Group.enabled_of_disabled hs), if_neg hany, Group.safeEntries_eq]

end

end Sys2Proof.Machine
end

section
/-! PROOFS. The obligations about DEFINE_GROUP and LOAD_SAFE, outside the namespace of the effects they are named like. -/

namespace Sys2Proof

open Sys2Proof.Machine Sys2Proof.Safety

/-- Settles O41: the command by the state of the slot and the checks of its fields. -/
theorem defineGroup : Obligations.DefineGroup := by
  intro tag f s hs hr
  refine ⟨fun hb => takeCommand_eq_answered hs (withGroup_of_beyond tag _ _ hb), fun g hg => ⟨fun h => ?_, fun hd hbad => ?_,
    fun hd hgood => ?_⟩⟩
  · exact takeCommand_eq_answered hs (defineGroup_of_enabled hg h)
  · exact takeCommand_eq_answered hs (defineGroup_of_bad hg hd hr hbad)
  · refine takeCommand_of_effect hs (defineGroup_of_good hg hd hr hgood) ?_
    rw [slotSafeEntries_eq]
    rfl

/-- Settles O45: the command check by check, and the image its loads leave. -/
theorem loadSafe : Obligations.LoadSafe := by
  refine ⟨fun tag b first loads s hs hcount => ?command, fun img loads hn => ⟨applyLoads_nodup loads hn, applyLoads_offsets hn,
    applyLoads_added img loads, fun off => ?word⟩⟩
  case word =>
    rw [find?_applyLoads]
    cases loads.reverse.find? (fun e => e.offset == off) <;> rfl
  case command =>
    have hexec : exec (.loadSafe tag b first loads) s =
        takeCommand (.loadSafe tag b first loads) s (Machine.loadSafe tag b first loads) := if_pos hcount
    rw [hexec]
    refine ⟨fun h => takeCommand_eq_answered hs (loadSafe_of_bad h), fun g hg hf => ⟨fun hx => ?_, fun x hx => ⟨fun hk => ?_,
      fun hk hd => ?_, fun hk hd hl => ?_, fun old new ho hnew hk hd hl => ?loaded⟩⟩⟩
    · exact takeCommand_eq_answered hs ((loadSafe_of_flag hg hf).trans (loadSafeInto_of_absent hx))
    · exact takeCommand_eq_answered hs ((loadSafe_of_flag hg hf).trans (loadSafeInto_of_input hx hk))
    · exact takeCommand_eq_answered hs ((loadSafe_of_flag hg hf).trans (loadSafeInto_of_enabled hx hk hd))
    · exact takeCommand_eq_answered hs ((loadSafe_of_flag hg hf).trans (loadSafeInto_of_beyond hx hk hd hl))
    case loaded =>
      subst ho
      have hnew : loadedImage x first loads = new := hnew.symm
      have heffect := (loadSafe_of_flag hg hf).trans (loadSafeInto_of_loads (tag := tag) (first := first)
        (s := s.frameEnds .complete (encodeFrame (.loadSafe tag b first loads))) hx hk hd hl)
      rw [hnew] at heffect
      exact ⟨fun hlt => takeCommand_eq_answered hs (heffect.trans (if_neg (Nat.not_le.mpr hlt))),
        fun hle => takeCommand_of_effect hs (heffect.trans (if_pos hle)) rfl⟩

end Sys2Proof
end

section
/-! SUPPORT. RESET_DEVICE: its beginning, the abandonment, and the TORN writes (R120, R121, R198 to R200). -/

namespace Sys2Proof.Machine

open Sys2Proof.Safety

/-! ### The beginning -/

theorem Source.reset_eq (x : Source) : x.reset = if x.record = none then x else
    { record := x.record, running := false, epoch := 0, skip := false, lock := .await, holdover := 0, phase := 0
      countdown := none, watch := none, standIn := none, absorbWindow := none, line := false } := by
  unfold Source.reset
  rcases h : x.record with - | r
  · rfl
  · rw [if_pos (by rfl), if_neg (by nofun), ← h]
    rfl

/-- With no edge waiting nothing is taken (log 11). -/
theorem takeAllEdges_of_none {s : State} (h : s.edges = []) : takeAllEdges s = s := by
  have hsame : s.setEdges [] = s := by rw [← h]; rfl
  have hround : takeEdges s = s := by rw [takeEdges, h, List.foldl_nil, hsame]
  rw [takeAllEdges, hround, hround, hround, hround, hsame]

/-! ### The abandonment -/

/-- The state after the abandonment, before the TORN writes (R48, R120, R121, R161). -/
theorem abandonWork_eq (r : Resetting) (s : State) : abandonWork r s = { s with
    groups := s.groups.map (fun o => o.map (fun x => if x.state = .disabled then x else
      { x with state := .disabled, filling := none, armed := none, committing := none, pendingSafe := false
               front := none, back := .idle, captureInFlight := false, held := false }))
    freeStage := 4096, freeSnapshot := 2048, engine := { queue := [], running := none, marginList := [] }, streak := 0
    resetting := some { r with abandoned := true, torn := s.tornDue } } := by
  have hgroup : Group.abandoned = fun x => if x.state = .disabled then x else
      { x with state := .disabled, filling := none, armed := none, committing := none, pendingSafe := false
               front := none, back := .idle, captureInFlight := false, held := false } := by
    funext x
    by_cases h : x.state = .disabled
    · rw [Group.abandoned, if_neg (Group.enabled_of_disabled h), if_pos h]
    · rw [Group.abandoned, if_pos (Group.enabled_of_ne h), if_neg h]
  rw [abandonWork, hgroup]
  rfl

theorem hostAsk_of_resetting {s : State} {r : Resetting} (h : s.resetting = some r) : s.hostAsk = none := by
  rw [State.hostAsk, if_pos (by rw [h]; rfl)]

/-- While the work is abandoned the first TORN write due is granted the free port (R121). -/
theorem arbitrate_of_torn {s : State} {r : Resetting} {w : TornWrite} {rest : List TornWrite} (hp : s.port = none)
    (hr : s.resetting = some r) (ha : r.abandoned = true) (ht : r.torn = w :: rest) (hrun : s.engine.running = none) :
    arbitrate s = { s with port := some ⟨.torn, ⟨.write, w.addr, [⟨0xF, 0b10#2 ++ w.count⟩]⟩⟩, streak := 0 } := by
  have hask : s.engineAsk = some ⟨.torn, ⟨.write, w.addr, [⟨0xF, 0b10#2 ++ w.count⟩]⟩⟩ := by
    simp only [State.engineAsk, hr, ha, ht, if_true]
    rfl
  have hsame : s.setRunning (s.engine.running.map (fun j => j.noteIssued .torn)) = s := by
    rw [hrun, Option.map_none, ← hrun]
    rfl
  rw [arbitrate_of_engine hp hask (hostAsk_of_resetting hr), grantEngine, hsame]
  rfl

theorem continueReset_of_due {s : State} {r : Resetting} {w : TornWrite} {rest : List TornWrite} (hp : s.port = none)
    (hr : s.resetting = some r) (ha : r.abandoned = true) (ht : r.torn = w :: rest) (hrun : s.engine.running = none) :
    continueReset r s = { s with port := some ⟨.torn, ⟨.write, w.addr, [⟨0xF, 0b10#2 ++ w.count⟩]⟩⟩, streak := 0 } := by
  rw [← arbitrate_of_torn hp hr ha ht hrun, continueReset, ht]
  rfl

theorem continueReset_of_done {s : State} {r : Resetting} (h : r.torn = []) :
    continueReset r s = settle (runHost (endReset r.tag s)) := by
  rw [continueReset, h]
  rfl

/-! ### The answer in progress when the reset began -/

theorem afterAnswer_of_reset {s : State} {r : Resetting} (hr : s.resetting = some r) (ha : r.abandoned = false) :
    afterAnswer s = abandon r s := by
  simp only [afterAnswer, hr, ha, Bool.false_eq_true, if_false]

/-- An answer that is recorded in the running job, and then the work is abandoned (R120). -/
theorem jobAnswer_of_reset {s : State} {p : Purpose} {q : PortRequest} {j : Job} {r : Resetting} (f : Job → State → Job)
    (hra : s.resetAsserted = false) (hrs : s.resetting = some r) (ha : r.abandoned = false) (hp : s.port = some ⟨p, q⟩)
    (hr : s.engine.running = some j) :
    unlessReset s (jobAnswer p s (fun j t => .next (afterAnswer (t.setRunning (some (f j t)))))) =
      .next (abandon r (answeredJob (f j (s.setPort none)) s)) := by
  rw [unlessReset_of_false hra, jobAnswer_of_port _ hp hr,
    afterAnswer_of_reset (s := (s.setPort none).setRunning (some (f j (s.setPort none)))) hrs ha]
  rfl

/-- What a recorded answer leaves of a job that a TORN write can be due for (R121). -/
def Job.SameOwed (j k : Job) : Prop :=
  k.kind = j.kind ∧ k.group = j.group ∧ k.count = j.count ∧ k.writingIssued = j.writingIssued ∧ k.closingIssued = j.closingIssued

theorem sameOwed_noteAnswer (j : Job) (st : PortStatus) (p : FaultPosition) : j.SameOwed (j.noteAnswer st p) := by
  cases st <;> exact ⟨rfl, rfl, rfl, rfl, rfl⟩

/-- An answer of the memory to the host path (R51). -/
theorem hostAnswer_of_port {s : State} {p : Purpose} {q : PortRequest} {a : ActiveRequest}
    (k : PortRequest → ActiveRequest → State → Result) (hp : s.port = some ⟨p, q⟩) (ha : s.host.active = some a) :
    hostAnswer p s k = k q a (s.setPort none) := by
  simp only [hostAnswer, outstanding_eq_some.mpr hp, ha]

/-- An answer to the host path's request during the reset: it is recorded, and the work is abandoned (R69, R120). -/
theorem afterAnswer_runHost_of_reset {s : State} {r : Resetting} (hr : s.resetting = some r) (ha : r.abandoned = false) :
    afterAnswer (runHost s) = abandon r s := by
  rw [runHost_of_resetting (by rw [hr]; nofun), afterAnswer_of_reset hr ha]

/-- The groups after a burst was answered OKAY (R114). -/
def burstPlaced (g : GroupNo) (data : List Word) (s : State) : Vector (Option Group) 32 :=
  match s.group g with
  | some x => if x.record.kind = .input then s.groups.set g (some { x with back := .filling (x.back.words ++ data) }) else s.groups
  | none => s.groups

theorem placeBurst_eq (g : GroupNo) (data : List Word) (s : State) : placeBurst g data s = { s with groups := burstPlaced g data s } := by
  unfold burstPlaced placeBurst State.onInput
  rcases s.group g with - | x
  · rfl
  · rcases hk : x.record.kind <;> simp only [hk] <;> rfl

section
variable {s : State} {j : Job} {q : PortRequest} {r : Resetting} {data : List Word}

/-- The answer to a burst during the reset: OKAY places its words, and the work is abandoned (R120, R160). -/
theorem exec_burst_okay_of_reset (hra : s.resetAsserted = false) (hrs : s.resetting = some r) (ha : r.abandoned = false)
    (hr : s.engine.running = some j) (hp : s.port = some ⟨.burst, q⟩) (hd : data.length = q.words.length) :
    exec (.captureBurstResponse .okay data) s = .next (abandon r { s with
      port := none, engine := { s.engine with running := some { j with progress := j.progress + data.length } }
      groups := burstPlaced j.group data s }) := by
  refine (unlessReset_of_false hra _).trans ?_
  rw [outstanding_eq_some.mpr hp]
  refine (jobAnswer_of_port _ hp hr).trans ?_
  simp only [if_pos hd]
  rw [placeBurst_eq, afterAnswer_of_reset (by exact hrs) ha]
  rfl

theorem exec_burst_fault_of_reset (data : List Word) (hra : s.resetAsserted = false) (hrs : s.resetting = some r)
    (ha : r.abandoned = false) (hr : s.engine.running = some j) (hp : s.port = some ⟨.burst, q⟩) :
    exec (.captureBurstResponse .fault data) s = .next (abandon r { s with
      port := none, engine := { s.engine with running := some j } }) := by
  have hreset : (s.setPort none).resetting.isSome = true := by rw [State.setPort_resetting, hrs]; rfl
  refine (unlessReset_of_false hra _).trans ?_
  rw [outstanding_eq_some.mpr hp]
  refine (jobAnswer_of_port _ hp hr).trans ?_
  simp only [if_pos hreset]
  rw [afterAnswer_of_reset (s := s.setPort none) hrs ha, ← hr]
  rfl

end

/-! ### The TORN writes due -/

/-- The TORN write that is due for a group at the abandonment (R121). -/
def State.tornFor (s : State) (g : GroupNo) : Option TornWrite :=
  (s.engine.jobs.find? (fun j => decide (j.group = g) && j.owesTorn)).bind (fun j =>
    (s.group g).bind (fun x => x.record.seqWord.map (fun a => { addr := BitVec.ofNat 24 a, count := j.count })))

theorem tornDue_eq (s : State) : s.tornDue = (List.finRange 32).filterMap s.tornFor := rfl

theorem owesTorn_iff {j : Job} : j.owesTorn = true ↔ j.kind ≠ .capture ∧ j.writingIssued = true ∧ j.closingIssued = false := by
  simp [Job.owesTorn, and_assoc]

/-- Who is owed a TORN write, and which. -/
theorem tornFor_eq_some {s : State} {g : GroupNo} {w : TornWrite} (h : s.tornFor g = some w) :
    ∃ j ∈ s.engine.jobs, j.group = g ∧ j.owesTorn = true ∧ j.count = w.count ∧
      ∃ x ∈ s.group g, ∃ q ∈ x.record.seqAddr, w.addr = BitVec.ofNat 24 (q.toNat / 4) := by
  obtain ⟨j, hj, h⟩ := Option.bind_eq_some_iff.mp h
  obtain ⟨x, hx, h⟩ := Option.bind_eq_some_iff.mp h
  obtain ⟨a, ha, rfl⟩ := Option.map_eq_some_iff.mp h
  obtain ⟨q, hq, rfl⟩ := Option.map_eq_some_iff.mp ha
  have hown : j.group = g ∧ j.owesTorn = true := by
    simpa using List.find?_some (p := fun j : Job => decide (j.group = g) && j.owesTorn) hj
  exact ⟨j, List.mem_of_find?_eq_some hj, hown.1, hown.2, rfl, x, hx, q, hq, rfl⟩

theorem tornFor_isSome {s : State} {g : GroupNo} {j : Job} {x : Group} (hj : j ∈ s.engine.jobs) (hg : j.group = g)
    (ho : j.owesTorn = true) (hx : s.group g = some x) (hq : x.record.seqAddr ≠ none) : (s.tornFor g).isSome = true := by
  have hfind : (s.engine.jobs.find? (fun j : Job => decide (j.group = g) && j.owesTorn)).isSome = true :=
    List.find?_isSome (p := fun j : Job => decide (j.group = g) && j.owesTorn) |>.mpr ⟨j, hj, by simp [hg, ho]⟩
  obtain ⟨k, hk⟩ := Option.isSome_iff_exists.mp hfind
  obtain ⟨q, hq⟩ := Option.ne_none_iff_exists'.mp hq
  simp [State.tornFor, hk, hx, GroupRecord.seqWord, hq]

/-- The elements to which a function gives a value, and their values, stand side by side. -/
theorem zip_filterMap {α β : Type} (f : α → Option β) : ∀ l : List α,
    (l.filter (fun a => (f a).isSome)).length = (l.filterMap f).length ∧
    ∀ p ∈ (l.filter (fun a => (f a).isSome)).zip (l.filterMap f), f p.1 = some p.2
  | [] => ⟨rfl, nofun⟩
  | a :: l => by
    obtain ⟨hlen, hzip⟩ := zip_filterMap f l
    rcases ha : f a with - | b
    · rw [List.filter_cons_of_neg (by simp [ha]), List.filterMap_cons_none ha]
      exact ⟨hlen, hzip⟩
    · rw [List.filter_cons_of_pos (by simp [ha]), List.filterMap_cons_some ha, List.zip_cons_cons]
      refine ⟨by simp [hlen], fun p hp => ?_⟩
      rcases List.mem_cons.mp hp with rfl | hp
      · exact ha
      · exact hzip p hp

theorem finRange_pairwise_lt (n : Nat) : (List.finRange n).Pairwise (· < ·) := by
  exact List.pairwise_lt_finRange n

/-! ### The end of the reset -/

theorem settle_of_hostAsk {s : State} {a : ActiveRequest} {v : PortUse} (hp : s.port = none) (hrs : s.resetting = none)
    (hrun : s.engine.running = none) (hq : s.engine.queue = []) (ha : s.host.active = some a) (hw : a.wait ≠ .nothing)
    (hask : s.hostAsk = some v) : settle s = { s with port := some v, streak := 0 } := by
  have hb : s.engineBusy = false := by simp [State.engineBusy, hp]
  rw [settle_of_free hb hrs, pumped_of_stalled (.inl ⟨hrun, hq⟩), joinHost_of_apart (.inr ⟨ha, .inr (.inr (.inl hw))⟩),
    arbitrate_of_host hp hask (.inl (engineAsk_of_idle hrs hrun))]
  rfl

end Sys2Proof.Machine
end

section
/-! PROOFS. The obligations about RESET_DEVICE (R120, R121, R198 to R200). -/

namespace Sys2Proof.Machine

open Sys2Proof.Safety

/-- Settles O47: the beginning of the reset, and the abandonment at once when the port is free. -/
theorem resetDeviceBegins : Obligations.ResetDeviceBegins := by
  refine ⟨fun s h => takeAllEdges_of_none h, fun tag s u begun hs hu hb => ?_⟩
  have hbegun : beginReset tag (takeAllEdges (s.frameEnds .complete (encodeFrame (.resetDevice tag)))) = begun := by
    have hsource : Source.reset = fun x => if x.record = none then x else
        { record := x.record, running := false, epoch := 0, skip := false, lock := .await, holdover := 0, phase := 0
          countdown := none, watch := none, standIn := none, absorbWindow := none, line := false } := funext Source.reset_eq
    rw [beginReset, hsource, hb, hu]
    rfl
  have hport : begun.port = u.port := by rw [hb]
  have hexec : exec (.resetDevice tag) s = .next (if begun.port.isSome then begun else
      abandon { tag := tag, abandoned := false, torn := [] } begun) := by
    obtain ⟨hra, hrs, hrecv⟩ := hs
    refine (takeFrame_of_ready _ _ _ hra hrs hrecv).trans ?_
    rw [resetDevice, hbegun]
  rw [hexec, hport]
  refine ⟨fun hp => ?_, fun hp => ?_⟩
  · rw [if_pos (Option.isSome_iff_ne_none.mpr hp)]
  · rw [hp]; rfl

/-- Settles O48: the abandonment, and the first TORN write or the end of the reset. -/
theorem abandonmentOfWork : Obligations.AbandonmentOfWork := by
  intro s gone r hp hr hgone
  have habandon : abandonWork r s = { gone with resetting := some { r with abandoned := true, torn := s.tornDue } } := by
    rw [abandonWork_eq, hgone]
  rw [abandon, habandon]
  subst hgone
  refine ⟨fun w rest ht => ?_, fun ht ha hw => ?_⟩
  · rw [continueReset_of_due (w := w) (rest := rest) (by exact hp) (by rfl) (by rfl) (by exact ht) (by rfl), ht]
  · rw [continueReset_of_done ht, runHost_idle (by exact ha) (by exact hw), settle_idle (by rfl) (by rfl) (by exact ha) (by rfl)]
    rfl

/-- Settles O49: the answer is recorded, whatever it answers, and the abandonment follows. -/
theorem answerDuringResetAbandons : Obligations.AnswerDuringResetAbandons := by
  intro s r q st hra hrs hr
  refine ⟨fun j p i hrun hp hi => ?job, fun j data hrun hk hp hlen => ?burst, fun a data ha hp hlen => ?run, fun a data ha hp => ?layered⟩
  case job =>
    have hsame := fun p => sameOwed_noteAnswer j st p
    have hanswer : ∀ f : Job → State → Job, j.SameOwed (f j (s.setPort none)) → exec i s = unlessReset s (jobAnswer p s (fun j t =>
        .next (afterAnswer (t.setRunning (some (f j t)))))) → ∃ k : Job, k.kind = j.kind ∧ k.group = j.group ∧ k.count = j.count ∧
          k.writingIssued = j.writingIssued ∧ k.closingIssued = j.closingIssued ∧
          exec i s = .next (abandon r { s with port := none, engine := { s.engine with running := some k } }) := by
      rintro f ⟨h1, h2, h3, h4, h5⟩ he
      exact ⟨f j (s.setPort none), h1, h2, h3, h4, h5, he.trans (jobAnswer_of_reset f hra hrs hr hp hrun)⟩
    rcases hi with ⟨rfl, rfl⟩ | ⟨rfl, rfl⟩ | ⟨rfl, data, rfl⟩ | ⟨rfl, rfl⟩ | ⟨rfl, rfl⟩
    · exact hanswer (fun j _ => j.noteAnswer st .sequenceWord) (hsame _) rfl
    · exact hanswer (fun j t => { j.noteAnswer st (t.currentPosition j) with progress := j.progress + 1 }) (hsame _) rfl
    · refine hanswer (fun j t => match st with
        | .okay => { j with releaseData := some (data &&& (t.currentEntry j).elim 0 (fun e => e.data)) }
        | .fault => { j.noteAnswer st (t.currentPosition j) with progress := j.progress + 1, releaseData := none }) ?_ ?_
      · cases st <;> exact ⟨rfl, rfl, rfl, rfl, rfl⟩
      · cases st <;> rfl
    · exact hanswer (fun j t => { j.noteAnswer st (t.currentPosition j) with progress := j.progress + 1, releaseData := none })
        (hsame _) rfl
    · refine hanswer (fun j _ => j.noteAnswer st .sequenceWord) (hsame _) ((unlessReset_of_false hra _).trans ?_)
      rw [unlessReset_of_false hra, jobAnswer_of_port _ hp hrun, jobAnswer_of_port _ hp hrun]
      simp only [State.setPort_resetting, hrs, Option.isSome_some, if_true]
  case burst =>
    cases st with
    | okay =>
      have hexec := exec_burst_okay_of_reset hra hrs hr hrun hp (hlen rfl)
      refine ⟨{ j with progress := j.progress + data.length }, (s.group j.group).elim [] (fun x => x.back.words ++ data), hk, rfl, hexec.trans ?_⟩
      unfold burstPlaced
      rcases s.group j.group with - | x
      · rfl
      · simp only [and_true]
        rfl
    | fault =>
      refine ⟨j, [], hk, rfl, (exec_burst_fault_of_reset data hra hrs hr hrun hp).trans ?_⟩
      rcases s.group j.group with - | x
      · rfl
      · simp
  case run =>
    refine (unlessReset_of_false hra _).trans ((hostAnswer_of_port _ hp ha).trans ?_)
    rw [if_neg (by rintro ⟨h1, h2, h3⟩; exact h3 (hlen h1 h2))]
    exact congrArg Host.Outcome.next (afterAnswer_runHost_of_reset (s := (s.setPort none).setActive _) hrs hr)
  case layered =>
    refine (unlessReset_of_false hra _).trans ((hostAnswer_of_port _ hp ha).trans ?_)
    exact congrArg Host.Outcome.next (afterAnswer_runHost_of_reset (s := (s.setPort none).setActive _) hrs hr)

/-- Settles O50: the groups that are owed a TORN write stand beside the writes, and each answer goes on to the next. -/
theorem tornWritesAreDue : Obligations.TornWritesAreDue := by
  refine ⟨fun s _ => ?due, fun s r q st w hra hrs hr hp => ?answer⟩
  case due =>
    obtain ⟨hlen, hzip⟩ := zip_filterMap s.tornFor (List.finRange 32)
    refine ⟨(List.finRange 32).filter (fun g => (s.tornFor g).isSome), (finRange_pairwise_lt 32).filter _, fun g => ?_, hlen,
      fun p hp => ?_⟩
    · rw [List.mem_filter, and_iff_right (List.mem_finRange g)]
      constructor
      · intro h
        obtain ⟨w, hw⟩ := Option.isSome_iff_exists.mp h
        obtain ⟨j, hj, hg, ho, -, x, hx, a, ha, -⟩ := tornFor_eq_some hw
        obtain ⟨hk, hwr, hcl⟩ := owesTorn_iff.mp ho
        exact ⟨j, hj, hg, hk, hwr, hcl, x, hx, by rw [Option.mem_def.mp ha]; nofun⟩
      · rintro ⟨j, hj, hg, hk, hwr, hcl, x, hx, ha⟩
        exact tornFor_isSome hj hg (owesTorn_iff.mpr ⟨hk, hwr, hcl⟩) hx ha
    · obtain ⟨j, hj, hg, -, hc, x, hx, a, ha, he⟩ := tornFor_eq_some (hzip p hp)
      exact ⟨j, hj, hg, hc, x, hx, a, ha, he⟩
  case answer =>
    have hexec : exec (.tornWriteResponse st) s = .next (continueReset { r with torn := r.torn.tail }
        { s.setPort none with resetting := some { r with torn := r.torn.tail } }) := by
      refine (unlessReset_of_false hra _).trans ?_
      simp only [outstanding_eq_some.mpr hp, hrs]
    have hlast : r.torn = [w] → exec (.tornWriteResponse st) s = .next (settle (runHost { s with
        port := none, resetting := none
        link := { s.link with response := { status := .ok, tag := r.tag, payload := [] } } })) := by
      intro ht
      rw [hexec, continueReset_of_done (by rw [ht]; rfl)]
      rfl
    refine ⟨fun w' rest ht hrun => ?_, fun a ask ht hrun hq ha hask => ?_, hlast⟩
    · have htail : r.torn.tail = w' :: rest := by rw [ht]; rfl
      rw [hexec, htail, hr]
      exact congrArg Host.Outcome.next (continueReset_of_due (w := w') (rest := rest) rfl rfl rfl rfl hrun)
    · have hw : a.wait ≠ .nothing := by
        rcases hask with ⟨hw, -⟩ | ⟨image, lanes, hw, -⟩ <;> rw [hw] <;> nofun
      rw [hlast ht, runHost_of_standing (by exact ha) (.inl hw),
        settle_of_hostAsk (v := ask) (by rfl) (by rfl) (by exact hrun) (by exact hq) (by exact ha) hw]
      rw [hostAsk_of_active (by rfl) (by exact ha)]
      rcases hask with ⟨hw, rfl⟩ | ⟨image, lanes, hw, rfl⟩ <;> rw [hw]

end Sys2Proof.Machine
end

section
/-! SUPPORT. The byte lanes of words (R11, R60, R64, R66), and the requests of one word (R10 to R14, R59 to R67). -/

namespace Sys2Proof.Machine

open Sys2Proof.Safety

/-! ### Lanes -/

theorem laneByte_and (v w : Word) (i : Nat) : laneByte (v &&& w) i = laneByte v i &&& laneByte w i := BitVec.extractLsb'_and ..

theorem laneByte_or (v w : Word) (i : Nat) : laneByte (v ||| w) i = laneByte v i ||| laneByte w i := BitVec.extractLsb'_or ..

theorem laneByte_not (v : Word) {i : Nat} (hi : i < 4) : laneByte (~~~v) i = ~~~(laneByte v i) := by
  unfold laneByte
  ext k hk
  simp only [BitVec.getElem_extractLsb', BitVec.getLsbD_not, BitVec.getElem_not]
  simp
  omega

/-- The mask of a set of lanes, byte by byte. -/
theorem laneByte_laneMask (l : Lanes) {i : Nat} (hi : i < 4) : laneByte (laneMask l) i = if l.getLsbD i then 0xFF else 0 := by
  have h : ∀ l : Lanes, ∀ i : Fin 4, laneByte (laneMask l) i = if l.getLsbD i then 0xFF else 0 := by decide
  exact h l ⟨i, hi⟩

theorem laneByte_keepLanes (w : Word) (l : Lanes) {i : Nat} (hi : i < 4) :
    laneByte (keepLanes w l) i = if l.getLsbD i then laneByte w i else 0 := by
  rw [keepLanes, laneByte_and, laneByte_laneMask l hi]
  split
  · exact BitVec.and_allOnes
  · exact BitVec.and_zero

theorem laneByte_mergeLanes (old new : Word) (l : Lanes) {i : Nat} (hi : i < 4) :
    laneByte (mergeLanes old new l) i = if l.getLsbD i then laneByte new i else laneByte old i := by
  rw [mergeLanes, laneByte_or, laneByte_and, laneByte_and, laneByte_not _ hi, laneByte_laneMask l hi]
  split
  · have hnew : laneByte new i &&& (0xFF : Byte) = laneByte new i := BitVec.and_allOnes
    have hold : laneByte old i &&& ~~~(0xFF : Byte) = 0#8 := BitVec.and_zero
    rw [hnew, hold, BitVec.zero_or]
  · have hnew : laneByte new i &&& (0 : Byte) = 0#8 := BitVec.and_zero
    have hold : laneByte old i &&& ~~~(0 : Byte) = laneByte old i := BitVec.and_allOnes
    rw [hnew, hold, BitVec.or_zero]

/-! ### The layered view, lane by lane (R60) -/

/-- What one holder adds: the lanes still looked for that it holds. -/
theorem takeLanes_lane (acc : Word × Lanes) (o : Option Entry) {i : Nat} (hi : i < 4) :
    (takeLanes acc o).2.getLsbD i = (acc.2.getLsbD i && !(o.elim false fun e => e.lanes.getLsbD i)) ∧
    laneByte (takeLanes acc o).1 i = laneByte acc.1 i |||
      (if (acc.2.getLsbD i && o.elim false fun e => e.lanes.getLsbD i) = true then o.elim 0 (fun e => laneByte e.data i) else 0) := by
  rcases o with - | e
  · simp [takeLanes]
  · refine ⟨by simp [takeLanes, hi], ?_⟩
    rw [takeLanes, laneByte_or, laneByte_keepLanes _ _ hi, BitVec.getLsbD_and]
    rfl

/-- The entries, newest first, that hold a lane. -/
def laneHolders (os : List (Option Entry)) (i : Nat) : List Entry :=
  (os.flatMap Option.toList).filter (fun e => e.lanes.getLsbD i)

/-- The layered view over holders, newest first: the first that holds a lane gives its byte. -/
theorem foldl_takeLanes (os : List (Option Entry)) (acc : Word × Lanes) {i : Nat} (hi : i < 4) :
    (os.foldl takeLanes acc).2.getLsbD i = (acc.2.getLsbD i && (laneHolders os i).isEmpty) ∧
    laneByte (os.foldl takeLanes acc).1 i = laneByte acc.1 i |||
      (if acc.2.getLsbD i = true then (laneHolders os i).head?.elim 0 (fun e => laneByte e.data i) else 0) := by
  induction os generalizing acc with
  | nil => simp [laneHolders]
  | cons o os ih =>
    obtain ⟨hmask, hbyte⟩ := takeLanes_lane acc o hi
    obtain ⟨hmask', hbyte'⟩ := ih (takeLanes acc o)
    have hcons : laneHolders (o :: os) i = o.toList.filter (fun e => e.lanes.getLsbD i) ++ laneHolders os i := by
      simp [laneHolders]
    rw [List.foldl_cons, hmask', hbyte', hmask, hbyte, hcons]
    rcases o with - | e
    · simp
    · cases he : e.lanes.getLsbD i <;> cases hm : acc.2.getLsbD i <;> simp [he]

theorem layeredLanes_eq (x : Group) (off : Byte) (lanes : Lanes) : layeredLanes x off lanes =
    [x.filling.bind (fun f => Image.entryAt f.entries off), x.armed.bind (fun i => Image.entryAt i off),
      Image.entryAt x.jobImage off].foldl takeLanes (0, lanes) := rfl

/-! ### The stamp word (R66, R204) -/

/-- Three flags above a number of 29 bits. -/
theorem flags_append_bits (e h p : BitVec 1) (n : BitVec 29) : (e ++ h ++ p ++ n : Word).getLsbD 31 = e.getLsbD 0 ∧
    (e ++ h ++ p ++ n : Word).getLsbD 30 = h.getLsbD 0 ∧ (e ++ h ++ p ++ n : Word).getLsbD 29 = p.getLsbD 0 ∧
    (e ++ h ++ p ++ n : Word).toNat % 2 ^ 29 = n.toNat := by
  refine ⟨?_, ?_, ?_, ?_⟩
  · rw [BitVec.getLsbD_append, BitVec.getLsbD_append, BitVec.getLsbD_append]; rfl
  · rw [BitVec.getLsbD_append, BitVec.getLsbD_append, BitVec.getLsbD_append]; rfl
  · rw [BitVec.getLsbD_append, BitVec.getLsbD_append]; rfl
  · rw [← BitVec.toNat_setWidth, BitVec.setWidth_append, dif_pos (by decide), BitVec.setWidth_eq]

theorem stampWord_bits (x : Group) : (stampWord x).getLsbD 31 = x.front.isNone ∧ (stampWord x).getLsbD 30 = x.held ∧
    (stampWord x).getLsbD 29 = x.back.isPending ∧
    (stampWord x).toNat % 2 ^ 29 = x.front.elim 0 (fun b => b.epoch.toNat % 2 ^ 29) := by
  obtain ⟨hempty, hheld, hpending, hepoch⟩ := flags_append_bits (bif x.front.isNone then 1 else 0) (bif x.held then 1 else 0)
    (match x.back with
      | .pending _ => 1
      | .idle => 0
      | .filling _ => 0)
    (match x.front with
      | some b => b.epoch.extractLsb' 0 29
      | none => 0)
  refine ⟨hempty.trans ?_, hheld.trans ?_, hpending.trans ?_, hepoch.trans ?_⟩
  · cases x.front <;> simp
  · cases x.held <;> simp
  · cases x.back <;> simp [BackBank.isPending]
  · cases x.front
    · rfl
    · exact BitVec.extractLsb'_toNat ..

/-! ### Staging (R10 to R14, R37, R39) -/

section
variable {g : GroupNo} {off : Byte} {w : PortWord} {s : State} {x : Group}

theorem stageWord_of_noLanes (h : w.lanes = 0) : stageWord g off w s = (false, s) := by
  unfold stageWord
  rcases s.group g with - | x
  · rfl
  · exact if_pos h

theorem stageWord_of_held (hx : s.group g = some x) (hw : w.lanes ≠ 0)
    (hh : Image.holds (x.filling.getD Filling.fresh).entries off = true) :
    stageWord g off w s = (false, s.setGroup g { x with filling := some { x.filling.getD Filling.fresh with
      entries := Image.mergeAt (x.filling.getD Filling.fresh).entries off w.data w.lanes } }) := by
  simp only [stageWord, hx, if_neg hw, if_pos hh]

theorem stageWord_of_new (hx : s.group g = some x) (hw : w.lanes ≠ 0)
    (hh : ¬ Image.holds (x.filling.getD Filling.fresh).entries off = true) (hp : s.freeStage ≠ 0) :
    stageWord g off w s = (false, (s.setGroup g { x with filling := some { x.filling.getD Filling.fresh with
      entries := (x.filling.getD Filling.fresh).entries ++ [{ offset := off, data := w.data, lanes := w.lanes }] } }).setFreeStage
        (s.freeStage - 1)) := by
  simp only [stageWord, hx, if_neg hw, if_neg hh, if_neg hp]

theorem stageWord_of_full (hx : s.group g = some x) (hw : w.lanes ≠ 0)
    (hh : ¬ Image.holds (x.filling.getD Filling.fresh).entries off = true) (hp : s.freeStage = 0) :
    stageWord g off w s = (true, refuseForPool g x (x.filling.getD Filling.fresh) off s) := by
  simp only [stageWord, hx, if_neg hw, if_neg hh, if_pos hp]

theorem stageWord_host (g : GroupNo) (off : Byte) (w : PortWord) (s : State) : (stageWord g off w s).2.host = s.host := by
  have h : stageWord g off w s = ((stageWord g off w s).1, (stageWord g off w s).2.setHost s.host) :=
    stageWord_setHost g off w s.host s
  exact congrArg (fun p => p.2.host) h

/-- A write of a word of class OUTPUT data is staged and answered in one step (R10, R49). -/
theorem exec_write_outputData {a : WordAddr} (w : PortWord) (hi : HostIdle s) (hc : classify s a = .outputData g off) :
    exec (.hostRequest (oneWord .write a w)) s =
      .next (settle (hostAnswered (if (stageWord g off w s).1 then .fault else .okay) [] (stageWord g off w s).2)) := by
  have hf : forwarded s .write (classify s a) = false := by rw [hc]; rfl
  have hhost := stageWord_host g off w s
  obtain ⟨-, -, -, hwait⟩ := id hi
  refine exec_oneWord_of_taken (v := none) hi rfl hf (by rw [hhost, hwait]) ?_
  rw [hc]
  simp only [takeWord, ActiveRequest.accepted, State.setActive, stageWord_setHost, hhost]
  rfl

/-! ### The words that need no memory (R59, R64, R66, R67) -/

theorem stampWrite_of_noLane (hl : w.lanes.getLsbD 0 = false) : stampWrite g w s = s := by
  unfold stampWrite
  rcases s.group g with - | x
  · rfl
  · exact if_neg (by rw [hl]; decide)

theorem stampWrite_of_lane (hx : s.group g = some x) (hl : w.lanes.getLsbD 0 = true) :
    stampWrite g w s = s.setGroup g (if w.data.getLsbD 0 then x.hold else x.release) := by
  simp only [stampWrite, hx, if_pos hl]
  split <;> rfl

theorem Group.release_of_pending {b : Bank} (hs : x.state = .live) (hh : x.held = true) (hb : x.back = .pending b) :
    x.release = { x with held := false, front := some b, back := .idle } := by
  rw [Group.release, if_pos (by simp [hs, hh]), Group.swapPending]
  simp only [hb]

theorem Group.release_of_not_pending (h : x.state ≠ .live ∨ x.held = false ∨ ∀ b, x.back ≠ .pending b) :
    x.release = { x with held := false } := by
  unfold Group.release
  split
  · next hc =>
    have hlive : x.held = true ∧ x.state = .live := by simpa using hc
    have hb := (h.resolve_left fun h => h hlive.2).resolve_left (by simp [hlive.1])
    have hswap : x.swapPending = x := by
      unfold Group.swapPending
      rcases he : x.back with - | ws | b
      · rfl
      · rfl
      · exact absurd he (hb b)
    rw [hswap]
  · rfl

/-- A write of the stamp word takes effect on the group, wherever the host path stands. -/
theorem stampWrite_setHost (h : HostPath) : stampWrite g w (s.setHost h) = (stampWrite g w s).setHost h := by
  unfold stampWrite
  rw [State.group_setHost]
  rcases s.group g with - | x
  · rfl
  · simp only
    split
    · split <;> rfl
    · rfl

end

/-! ### A read of an output group (R60, R61) -/

section
variable {a : WordAddr} {w : PortWord} {g : GroupNo} {off : Byte} {x : Group} {s : State}

theorem forwarded_of_layered {d : Dir} {c : WordClass} (hc : c = .outputData g off ∨ c = .outputSeal g off ∨ c = .draining g off) :
    forwarded s d c = false := by
  rcases hc with rfl | rfl | rfl <;> rfl

theorem State.layered_of_group (hx : s.group g = some x) (lanes : Lanes) : s.layered g off lanes = layeredLanes x off lanes := by
  simp only [State.layered, hx]

theorem takeWord_of_layered {b : ActiveRequest} {c : WordClass} (hd : b.request.dir = .read) (hx : s.group g = some x)
    (hc : c = .outputData g off ∨ c = .outputSeal g off ∨ c = .draining g off) :
    takeWord b w c s = takeLayered b (layeredLanes x off w.lanes) s := by
  rw [← State.layered_of_group hx]
  rcases hc with rfl | rfl | rfl <;> simp only [takeWord, hd]

theorem nextWait_of_layered {b : ActiveRequest} (hw : b.request.words[b.taken]? = some w) (hr : b.run = [])
    (hd : b.request.dir = .read) (hx : s.group g = some x)
    (hc : classify s b.nextAddr = .outputData g off ∨ classify s b.nextAddr = .outputSeal g off ∨
      classify s b.nextAddr = .draining g off) :
    s.nextWait b = layeredWait (layeredLanes x off w.lanes) := by
  have hf : ¬ forwarded s b.request.dir (classify s b.nextAddr) = true := by rw [forwarded_of_layered hc]; decide
  have hrun : ¬ (!b.run.isEmpty) = true := by rw [hr]; decide
  rw [← State.layered_of_group hx]
  rcases hc with hc | hc | hc <;> simp only [State.nextWait, hw, if_neg hf, if_neg hrun] <;> simp only [hd, hc]

/-- A one-word read, every enabled lane of which an image holds (R60). -/
theorem exec_read_of_images (hi : HostIdle s) (hw : w.data = 0) (hx : s.group g = some x)
    (hc : classify s a = .outputData g off ∨ classify s a = .outputSeal g off ∨ classify s a = .draining g off)
    (h0 : (layeredLanes x off w.lanes).2 = 0) :
    exec (.hostRequest (oneWord .read a w)) s = .next (settle (hostAnswered .okay [(layeredLanes x off w.lanes).1] s)) := by
  refine exec_oneWord_of_taken (t := s) (refused := false) (v := some (layeredLanes x off w.lanes).1) hi
    (by simp [PortRequest.wellFormed, hw, Config.burstWords]) (forwarded_of_layered hc) hi.2.2.2 ?_
  rw [takeWord_of_layered (s := s.setActive (some (.accepted (oneWord .read a w)))) rfl hx hc, takeLayered, if_pos h0]
  rfl

/-- A one-word read with an enabled lane that no image holds asks the memory for it (R61). -/
theorem exec_read_of_memory (hi : HostIdle s) (hw : w.data = 0) (hx : s.group g = some x)
    (hc : classify s a = .outputData g off ∨ classify s a = .outputSeal g off ∨ classify s a = .draining g off)
    (h0 : (layeredLanes x off w.lanes).2 ≠ 0) :
    exec (.hostRequest (oneWord .read a w)) s = .next (settle (withRequest
      { ActiveRequest.accepted (oneWord .read a w) with
        wait := .layered (layeredLanes x off w.lanes).1 (layeredLanes x off w.lanes).2 } s)) := by
  have haddr : (ActiveRequest.accepted (oneWord .read a w)).nextAddr = a := BitVec.add_zero a
  have hnext := nextWait_of_layered (s := s.setActive (some (.accepted (oneWord .read a w))))
    (b := .accepted (oneWord .read a w)) (w := w) rfl rfl rfl hx (by rw [haddr]; exact hc)
  have hask : layeredWait (layeredLanes x off w.lanes) =
      some (.layered (layeredLanes x off w.lanes).1 (layeredLanes x off w.lanes).2) := if_neg h0
  have htake := takeWords_nextWait (s := s.setActive (some (.accepted (oneWord .read a w)))) (Config.burstWords + 1) rfl rfl
    (by nofun) (hnext.trans hask)
  rw [exec_oneWord hi (by simp [PortRequest.wellFormed, hw, Config.burstWords]),
    pumpHost_of_noneWaiting 0 (by rw [htake]; exact hi.2.2.2), htake]
  rfl

end

end Sys2Proof.Machine
end

section
/-! PROOFS. The obligations about host requests of one word (R10 to R14, R59 to R67). -/

namespace Sys2Proof.Machine

open Sys2Proof.Safety

/-- Settles O29: the rows of staging, each through the one step of the write. -/
theorem hostWriteIsStaged : Obligations.HostWriteIsStaged := by
  refine ⟨fun old new l i hi => laneByte_mergeLanes old new l hi, fun s a w g off x f hi hc hx hf => ?_⟩
  have hf : x.filling.getD Filling.fresh = f := hf.symm
  have hexec := exec_write_outputData w hi hc
  have hnew : (∀ e ∈ f.entries, e.offset ≠ off) → ¬ Image.holds (x.filling.getD Filling.fresh).entries off = true := by
    intro h hh
    rw [hf] at hh
    obtain ⟨e, he, ho⟩ := List.mem_map.mp (Image.holds_iff.mp hh)
    exact h e he ho
  refine ⟨fun hw => ?_, fun hw hh => ?_, fun n hw hh hp => ?_, fun hw hh hp => ?_⟩
  · rw [hexec, stageWord_of_noLanes hw]
    rfl
  · obtain ⟨e, he, ho⟩ := hh
    rw [hexec, stageWord_of_held hx hw (by rw [hf]; exact Image.holds_iff.mpr (List.mem_map.mpr ⟨e, he, ho⟩)), hf]
    rfl
  · rw [hexec, stageWord_of_new hx hw (hnew hh) (by rw [hp]; nofun), hf, hp]
    rfl
  · rw [hexec, stageWord_of_full hx hw (hnew hh) hp, hf]
    unfold refuseForPool
    by_cases hd : f.damaged = true
    · simp only [if_pos hd]
      rfl
    · have hevent : groupEvent .poolExhausted g off.toNat =
          { kind := .poolExhausted, group := some g, source := none, epoch := none, detail := off.setWidth 16 } := by
        rw [groupEvent, detail_toNat]
      simp only [if_neg hd, hevent]
      rfl

/-- Settles O32: each word takes its effect in the one step of its request. -/
theorem wordsServedWithoutMemory : Obligations.WordsServedWithoutMemory := by
  refine ⟨fun w l i hi => laneByte_keepLanes w l hi, fun s a w g off x hi hx => ?_⟩
  obtain ⟨-, -, -, hwait⟩ := id hi
  refine ⟨fun hc => ?refused, fun b hc hw hb => ?bank, fun hc hw => ⟨stampWord x, ?stamp, stampWord_bits x⟩, fun hc => ?write⟩
  case refused =>
    refine exec_oneWord_of_taken (t := s) (refused := true) (v := none) hi rfl ?_ hwait ?_
    · rcases hc with hc | hc <;> rw [hc] <;> rfl
    · rcases hc with hc | hc <;> rw [hc] <;> rfl
  case bank =>
    refine exec_oneWord_of_taken (t := s) (refused := false) (v := some (keepLanes (b.words.getD off.toNat 0) w.lanes)) hi
      (by simp [PortRequest.wellFormed, hw, Config.burstWords]) ?_ hwait ?_
    · rw [hc]
      simp [forwarded, State.frontEmpty, hx, hb]
    · rw [hc]
      simp [takeWord, ActiveRequest.accepted, State.frontWord, hx, hb]
      rfl
  case stamp =>
    refine exec_oneWord_of_taken (t := s) (refused := false) (v := some (keepLanes (stampWord x) w.lanes)) hi
      (by simp [PortRequest.wellFormed, hw, Config.burstWords]) (by rw [hc]; rfl) hwait ?_
    rw [hc]
    simp [takeWord, ActiveRequest.accepted, State.stamp, hx]
    rfl
  case write =>
    have hexec : ∀ t, stampWrite g w s = t → t.host = s.host →
        exec (.hostRequest (oneWord .write a w)) s = .next (settle (hostAnswered .okay [] t)) := by
      rintro t rfl hhost
      refine exec_oneWord_of_taken (refused := false) (v := none) hi rfl (by rw [hc]; rfl) (by rw [hhost]; exact hwait) ?_
      rw [hc]
      simp only [takeWord, ActiveRequest.accepted, State.setActive, stampWrite_setHost, hhost]
      rfl
    refine ⟨fun hl => hexec s (stampWrite_of_noLane hl) rfl, fun hl hd => ?_, fun b hl hd hs hh hb => ?_, fun hl hd h => ?_⟩
    · exact hexec _ ((stampWrite_of_lane hx hl).trans (by rw [if_pos hd]; rfl)) rfl
    · exact hexec _ ((stampWrite_of_lane hx hl).trans (by rw [if_neg (by rw [hd]; decide), Group.release_of_pending hs hh hb]; rfl)) rfl
    · exact hexec _ ((stampWrite_of_lane hx hl).trans (by rw [if_neg (by rw [hd]; decide), Group.release_of_not_pending h]; rfl)) rfl

/-- Settles O27: the view over its three holders, newest first, and the step of a read in both cases. -/
theorem layeredViewByLane : Obligations.LayeredViewByLane := by
  refine ⟨fun x off lanes i hi holders hh => ?lanes, fun a w g off x s hi hw hx hc =>
    ⟨exec_read_of_images hi hw hx hc, fun h0 => ⟨exec_read_of_memory hi hw hx hc h0, fun hp hr hq => ?granted⟩⟩⟩
  case lanes =>
    have hholders : holders = laneHolders [x.filling.bind (fun f => Image.entryAt f.entries off),
        x.armed.bind (fun i => Image.entryAt i off), Image.entryAt x.jobImage off] i := by
      rw [hh]
      simp [laneHolders, Image.entryAt]
    obtain ⟨hmask, hbyte⟩ := foldl_takeLanes [x.filling.bind (fun f => Image.entryAt f.entries off),
      x.armed.bind (fun i => Image.entryAt i off), Image.entryAt x.jobImage off] (0, lanes) hi
    rw [layeredLanes_eq, hholders]
    refine ⟨hmask, hbyte.trans ?_⟩
    have hzero : laneByte (0 : Word) i = 0#8 := by
      unfold laneByte
      exact BitVec.extractLsb'_zero
    rw [hzero, BitVec.zero_or]
  case granted =>
    refine ⟨_, exec_read_of_memory hi hw hx hc h0, ?_⟩
    obtain ⟨b, hb⟩ : ∃ b, b = { ActiveRequest.accepted (oneWord .read a w) with
      wait := .layered (layeredLanes x off w.lanes).1 (layeredLanes x off w.lanes).2 } := ⟨_, rfl⟩
    have hask : (withRequest b s).hostAsk = some ⟨.layered, ⟨.read, a, [⟨(layeredLanes x off w.lanes).2, 0⟩]⟩⟩ := by
      have haddr : a + BitVec.ofNat 24 0 = a := BitVec.add_zero a
      rw [hostAsk_of_active (s := withRequest b s) (a := b) hi.2.1 rfl, hb]
      simp only [ActiveRequest.accepted, haddr]
    rw [← hb, settle_of_hostAsk (s := withRequest b s) (a := b) hp hi.2.1 hr hq rfl (by rw [hb]; nofun) hask]

end Sys2Proof.Machine
end

section
/-! SUPPORT. The host path's going on, act by act (R49, R50, R55 to R57): what one word, one end and one response make of the state. -/

namespace Sys2Proof.Machine

open Sys2Proof.Safety

/-! ### The request between two acts -/

theorem withRequest_eq (a : ActiveRequest) (s : State) : s.setActive (some a) = withRequest a s := rfl

/-- The host path's going on depends on what its words come to alone. -/
theorem runHost_congr {s u : State} (hs : s.resetting = none) (hu : u.resetting = none) (hw : s.host.waiting = u.host.waiting)
    (ht : takeWords (Config.burstWords + 2) s = takeWords (Config.burstWords + 2) u) : runHost s = runHost u := by
  have hfree : ∀ v : State, v.resetting = none → runHost v = pumpHost (v.host.waiting.length + 1) v := by
    intro v hv
    exact if_neg (by rw [hv]; decide)
  rw [hfree s hs, hfree u hu, hw, pumpHost, pumpHost, ht]

theorem runHost_of_active {s t : State} {b : ActiveRequest} (hs : s.resetting = none)
    (ht : takeWords (Config.burstWords + 2) s = t) (hb : t.host.active = some b) : runHost s = t := by
  unfold runHost
  rw [if_neg (by rw [hs]; decide), pumpHost, ht]
  simp only [hb]

theorem runHost_of_noneWaiting {s t : State} (hs : s.resetting = none) (ht : takeWords (Config.burstWords + 2) s = t)
    (hw : t.host.waiting = []) : runHost s = t := by
  unfold runHost
  rw [if_neg (by rw [hs]; decide), pumpHost_of_noneWaiting _ (by rw [ht]; exact hw), ht]

section
variable {s : State} {b : ActiveRequest} {w : PortWord} {h : HostWait}

theorem takeWords_of_forwarded {a : ActiveRequest} (n : Nat) (ha : s.host.active = some a) (hw : a.wait = .nothing)
    (hg : a.taken ∉ a.gaps) (hword : a.request.words[a.taken]? = some w)
    (hf : forwarded s a.request.dir (classify s a.nextAddr) = true) :
    takeWords (n + 1) s = takeWords n (s.setActive (some { a with run := a.run ++ [w], taken := a.taken + 1 })) := by
  have hgo : ¬ (a.wait ≠ .nothing ∨ a.taken ∈ a.gaps) := by simp [hw, hg]
  simp only [takeWords, ha, if_neg hgo, hword, if_pos hf]

theorem takeWords_of_effect {a : ActiveRequest} (n : Nat) (ha : s.host.active = some a) (hw : a.wait = .nothing)
    (hg : a.taken ∉ a.gaps) (hword : a.request.words[a.taken]? = some w) (hr : a.run = [])
    (hf : forwarded s a.request.dir (classify s a.nextAddr) = false) :
    takeWords (n + 1) s = takeWords n (takeWord a w (classify s a.nextAddr) s) := by
  have hgo : ¬ (a.wait ≠ .nothing ∨ a.taken ∈ a.gaps) := by simp [hw, hg]
  have hnf : ¬ forwarded s a.request.dir (classify s a.nextAddr) = true := by rw [hf]; decide
  have hrun : a.run.isEmpty = true := by rw [hr]; rfl
  simp only [takeWords, ha, if_neg hgo, hword, if_neg hnf, if_pos hrun]

theorem takeWords_of_end {a : ActiveRequest} (n : Nat) (ha : s.host.active = some a) (hw : a.wait = .nothing) (hg : a.taken ∉ a.gaps)
    (hword : a.request.words[a.taken]? = none) (hr : a.run = []) :
    takeWords (n + 1) s = hostAnswered (if a.faulted then .fault else .okay) a.data s := by
  have hgo : ¬ (a.wait ≠ .nothing ∨ a.taken ∈ a.gaps) := by simp [hw, hg]
  have hrun : a.run.isEmpty = true := by rw [hr]; rfl
  simp only [takeWords, ha, if_neg hgo, hword, if_pos hrun]
  rfl

variable (hrs : s.resetting = none) (hw : b.wait = .nothing) (hg : b.taken ∉ b.gaps)
include hrs hw hg

/-- A request whose next act asks for the memory port waits for it. -/
theorem runHost_of_nextWait (hn : s.nextWait b = some h) : runHost (withRequest b s) = withRequest { b with wait := h } s :=
  runHost_of_active (s := withRequest b s) (b := { b with wait := h }) hrs
    (takeWords_nextWait (s := withRequest b s) (Config.burstWords + 1) rfl hw hg hn) rfl

/-- A request that has ended is answered; with none held off, nothing else follows. -/
theorem runHost_of_end (hword : b.request.words[b.taken]? = none) (hr : b.run = []) (hwait : s.host.waiting = []) :
    runHost (withRequest b s) = hostAnswered (if b.faulted then .fault else .okay) b.data s :=
  runHost_of_noneWaiting (s := withRequest b s) hrs
    (takeWords_of_end (s := withRequest b s) (Config.burstWords + 1) rfl hw hg hword hr) hwait

/-- A request that has ended is answered, and the request held off behind is accepted. -/
theorem runHost_of_end_behind {r : HostRequest} {rest : List HostRequest} (hword : b.request.words[b.taken]? = none) (hr : b.run = [])
    (hwait : s.host.waiting = r :: rest) (hfit : r.addr.toNat + r.words.length ≤ 16777216) :
    runHost (withRequest b s) = runHost (withRequest (.accepted r) { s with
      host := {
        active := none, waiting := rest
        responses := s.host.responses ++ [{ status := if b.faulted then .fault else .okay, data := b.data }] } }) := by
  have htake := takeWords_of_end (s := withRequest b s) (Config.burstWords + 1) rfl hw hg hword hr
  have hfit : ¬ Config.addressWords < r.addr.toNat + r.words.length := Nat.not_lt.mpr hfit
  have hfree : ¬ s.resetting.isSome = true := by rw [hrs]; decide
  have hleft : runHost (withRequest b s) = pumpHost (s.host.waiting.length + 1) (withRequest b s) := if_neg hfree
  have hright : ∀ t : State, t.resetting = s.resetting → runHost t = pumpHost (t.host.waiting.length + 1) t := by
    intro t ht
    exact if_neg (by rw [ht]; exact hfree)
  rw [hleft, hright _ (by rfl), hwait, pumpHost, htake]
  simp only [hostAnswered, withRequest, hwait, acceptRequest, if_neg hfit, List.length_cons]
  rfl

/-- A forwarded word joins the open run (R55). -/
theorem runHost_of_forwarded (hword : b.request.words[b.taken]? = some w) (hlen : b.request.words.length ≤ 16)
    (hf : forwarded s b.request.dir (classify s b.nextAddr) = true) :
    runHost (withRequest b s) = runHost (withRequest { b with run := b.run ++ [w], taken := b.taken + 1 } s) := by
  refine runHost_congr (s := withRequest b s) hrs hrs rfl ?_
  rw [takeWords_of_forwarded (s := withRequest b s) (Config.burstWords + 1) rfl hw hg hword hf]
  exact (takeWords_rounds 16 1 _ fun a ha _ => by cases ha; simp only; omega).symm

/-- A word that is not forwarded takes its effect, and the host path goes on from it (R58 to R67). -/
theorem runHost_of_effect {c : ActiveRequest} {t : State} (hword : b.request.words[b.taken]? = some w)
    (hlen : b.request.words.length ≤ 16) (hr : b.run = []) (hf : forwarded s b.request.dir (classify s b.nextAddr) = false)
    (ht : takeWord b w (classify s b.nextAddr) (withRequest b s) = withRequest c t) (hc : c.request = b.request)
    (hrt : t.resetting = none) (hwt : t.host.waiting = s.host.waiting) :
    runHost (withRequest b s) = runHost (withRequest c t) := by
  refine runHost_congr (s := withRequest b s) (u := withRequest c t) hrs hrt hwt.symm ?_
  refine (takeWords_of_effect (s := withRequest b s) (Config.burstWords + 1) rfl hw hg hword hr hf).trans ?_
  have ht' : takeWord b w (classify (withRequest b s) b.nextAddr) (withRequest b s) = withRequest c t := ht
  rw [ht']
  exact (takeWords_rounds 16 1 _ fun a ha _ => by cases ha; rw [hc]; omega).symm

end

/-! ### The commands of the host path -/

/-- An empty queue lets a request that stands at a gap go on (log 8). -/
theorem tick_eq {s : State} {a : ActiveRequest} (hra : s.resetAsserted = false) (hrs : s.resetting = none)
    (ha : s.host.active = some a) (hw : a.wait = .nothing) : tick s = settle (runHost (withRequest a.passGap s)) := by
  have hgo : ¬ (s.resetAsserted || s.resetting.isSome || decide (a.wait ≠ .nothing)) = true := by simp [hra, hrs, hw]
  simp only [tick, ha, if_neg hgo]
  rfl

/-- A request that is behind its gap stands at none. -/
theorem passGap_notAtGap (a : ActiveRequest) : a.passGap.taken ∉ a.passGap.gaps := by
  simp [ActiveRequest.passGap]

theorem exec_hostRequest {s : State} {r : HostRequest} (hra : s.resetAsserted = false) (hwf : r.wellFormed = true) :
    exec (.hostRequest r) s = .next (settle (runHost (s.setHost { s.host with waiting := s.host.waiting ++ [r] }))) := by
  have hexec : exec (.hostRequest r) s = execHostRequest r s := rfl
  rw [hexec, execHostRequest, if_pos hwf, unlessReset_of_false hra]

/-- A request that arrives at an idle host path is accepted, and the host path goes on with it (R49, R55). -/
theorem exec_hostRequest_of_idle {s : State} {r : HostRequest} (hi : HostIdle s) (hwf : r.wellFormed = true)
    (hfit : r.addr.toNat + r.words.length ≤ 16777216) :
    exec (.hostRequest r) s = .next (settle (runHost (withRequest (.accepted r) s))) := by
  obtain ⟨hra, hrs, -, hwait⟩ := id hi
  have hfit : ¬ Config.addressWords < r.addr.toNat + r.words.length := Nat.not_lt.mpr hfit
  have haccept : acceptRequest r s = withRequest (.accepted r) s := if_neg hfit
  have hrun : runHost (withRequest (.accepted r) s) = pumpHost (s.host.waiting.length + 1) (withRequest (.accepted r) s) :=
    if_neg (by show ¬ s.resetting.isSome = true; rw [hrs]; decide)
  rw [exec_hostRequest hra hwf, runHost_accepts r hi, haccept, hrun, hwait]
  rfl

/-- After an answer the host path goes on with its request (R55, R57, R61). -/
theorem afterAnswer_runHost {s : State} {a : ActiveRequest} (hra : s.resetAsserted = false) (hrs : s.resetting = none)
    (hw : a.wait = .nothing) : afterAnswer (runHost (withRequest a s)) = goesOn a s := by
  rw [afterAnswer_of_free (s := runHost (withRequest a s)) ((runHost_onlyHost _).resetting.trans hrs), goesOn_eq hra hrs hw]

theorem exec_runResponse {s : State} {a : ActiveRequest} {q : PortRequest} {st : PortStatus} {data : List Word}
    (hra : s.resetAsserted = false) (hrs : s.resetting = none) (ha : s.host.active = some a) (hp : s.port = some ⟨.run, q⟩)
    (hlen : st = .okay → q.dir = .read → data.length = q.words.length) :
    exec (.runResponse st data) s = .next (goesOn (a.runAnswered st data) { s with port := none }) := by
  refine (unlessReset_of_false hra _).trans ((hostAnswer_of_port _ hp ha).trans ?_)
  rw [if_neg (by rintro ⟨h1, h2, h3⟩; exact h3 (hlen h1 h2))]
  exact congrArg Host.Outcome.next (afterAnswer_runHost (s := { s with port := none }) hra hrs rfl)

/-- The request after the answer to its layered read (R61, R63). -/
theorem layeredAnswered_eq {a : ActiveRequest} {image : Word} {lanes : Lanes} (hw : a.wait = .layered image lanes) (st : PortStatus)
    (data : Word) : a.layeredAnswered st data = { a with
      taken := a.taken + 1, wait := .nothing, faulted := a.faulted || decide (st = .fault)
      data := a.data ++ [match st with
        | .okay => image ||| keepLanes data lanes
        | .fault => image] } := by
  cases st <;> simp only [ActiveRequest.layeredAnswered, hw, ActiveRequest.tookWord] <;> rfl

theorem exec_layeredReadResponse {s : State} {a : ActiveRequest} {q : PortRequest} {image : Word} {lanes : Lanes} (st : PortStatus)
    (data : Word) (hra : s.resetAsserted = false) (hrs : s.resetting = none) (ha : s.host.active = some a)
    (hp : s.port = some ⟨.layered, q⟩) (hw : a.wait = .layered image lanes) :
    exec (.layeredReadResponse st data) s = .next (goesOn (a.layeredAnswered st data) { s with port := none }) := by
  refine (unlessReset_of_false hra _).trans ((hostAnswer_of_port _ hp ha).trans ?_)
  exact congrArg Host.Outcome.next (afterAnswer_runHost (s := { s with port := none }) hra hrs (by rw [layeredAnswered_eq hw]))

end Sys2Proof.Machine
end

section
/-! PROOFS. The obligations about the arrival and the course of a host request (R49, R50, R55 to R57, R61, R63). -/

namespace Sys2Proof.Machine

open Sys2Proof.Safety

theorem forwarded_iff {s : State} {d : Dir} {c : WordClass} : forwarded s d c = true ↔
    c = .pass ∨ (∃ g, c = .seqProtected g ∧ d = .read) ∨ (∃ g off, c = .inputData g off ∧ d = .write) ∨
    ∃ g off, c = .inputData g off ∧ d = .read ∧ ∀ x ∈ s.group g, x.front = none := by
  rcases c with - | - | - | - | g | ⟨g, off⟩ | -
  case inputData =>
    have hempty : s.frontEmpty g = true ↔ ∀ x ∈ s.group g, x.front = none := by
      rcases hx : s.group g <;> simp [State.frontEmpty, hx]
    cases d <;> simp [forwarded, hempty]
  all_goals simp [forwarded]

/-- A request every word of which is forwarded, from its first words on: the run takes the rest (R55). -/
theorem runHost_of_allForwarded {s : State} {r : HostRequest} (hrs : s.resetting = none) (hlen : r.words.length ≤ 16)
    (hne : r.words ≠ []) (hgaps : ∀ k ∈ r.gaps, r.words.length < k)
    (hf : ∀ k, k < r.words.length → forwarded s r.dir (classify s (r.addr + BitVec.ofNat 24 k)) = true) :
    ∀ n, n ≤ r.words.length → runHost (withRequest { ActiveRequest.accepted r with
        taken := r.words.length - n, run := r.words.take (r.words.length - n) } s) =
      withRequest { ActiveRequest.accepted r with taken := r.words.length, run := r.words, wait := .run } s := by
  intro n
  induction n with
  | zero =>
    intro _
    rw [Nat.sub_zero, List.take_length]
    refine runHost_of_nextWait hrs rfl (fun h => absurd (hgaps _ h) (Nat.lt_irrefl _)) ?_
    have hend : r.words[r.words.length]? = none := List.getElem?_eq_none le_rfl
    simp only [State.nextWait, ActiveRequest.accepted, hend]
    exact if_neg (by simpa using hne)
  | succ n ih =>
    intro hn
    have hlt : r.words.length - (n + 1) < r.words.length := by omega
    have hword : r.words[r.words.length - (n + 1)]? = some r.words[r.words.length - (n + 1)] := List.getElem?_eq_getElem hlt
    rw [← ih (by omega)]
    refine (runHost_of_forwarded (b := { ActiveRequest.accepted r with
        taken := r.words.length - (n + 1), run := r.words.take (r.words.length - (n + 1)) })
      hrs rfl (fun h => absurd (hgaps _ h) (Nat.lt_asymm hlt)) hword hlen (hf _ hlt)).trans ?_
    have htake : r.words.take (r.words.length - (n + 1)) ++ [r.words[r.words.length - (n + 1)]] =
        r.words.take (r.words.length - n) := by
      rw [List.take_concat_get' _ _ hlt]
      congr 1
      omega
    have htaken : r.words.length - (n + 1) + 1 = r.words.length - n := by omega
    simp only [htake, htaken]

/-- Settles O25: the arrival of a request by what it meets. -/
theorem hostRequestArrives : Obligations.HostRequestArrives := by
  refine ⟨fun s d c => forwarded_iff, fun r s hra hwf hstand => ?heldOff, fun r s hi hwf hbeyond => ?refused,
    fun r s hi hwf hfit hgaps hp hr hq hf => ?run⟩
  case heldOff =>
    rw [exec_hostRequest hra hwf]
    rcases hstand with hrs | ⟨a, ha, hstand⟩
    · rw [runHost_of_resetting (s := s.setHost { s.host with waiting := s.host.waiting ++ [r] }) hrs]
      rfl
    · rw [runHost_of_standing (s := s.setHost { s.host with waiting := s.host.waiting ++ [r] }) ha hstand]
      rfl
  case refused =>
    obtain ⟨hra, hrs, hact, hwait⟩ := id hi
    have hrefuse : acceptRequest r s = hostAnswered .fault (if r.dir = .read then List.replicate r.words.length 0 else []) s :=
      if_pos hbeyond
    have htake := takeWords_of_noneActive
      (s := hostAnswered .fault (if r.dir = .read then List.replicate r.words.length 0 else []) s) (Config.burstWords + 2) rfl
    rw [exec_hostRequest hra hwf, runHost_accepts r hi, hrefuse, pumpHost_of_noneWaiting 0 (by rw [htake]; exact hwait), htake]
  case run =>
    obtain ⟨hra, hrs, hact, hwait⟩ := id hi
    obtain ⟨hne, hlen⟩ : r.words ≠ [] ∧ r.words.length ≤ 16 := by
      simp only [PortRequest.wellFormed, Bool.and_eq_true, decide_eq_true_eq] at hwf
      obtain ⟨⟨h1, h2⟩, -⟩ := hwf
      exact ⟨List.ne_nil_of_length_pos h1, h2⟩
    have hall := runHost_of_allForwarded hrs hlen hne hgaps hf r.words.length le_rfl
    rw [Nat.sub_self, List.take_zero] at hall
    obtain ⟨b, hb⟩ : ∃ b : ActiveRequest, b = { ActiveRequest.accepted r with
      taken := r.words.length, run := r.words, wait := .run } := ⟨_, rfl⟩
    have hask : (withRequest b s).hostAsk = some ⟨.run, r.toPortRequest⟩ := by
      have haddr : r.addr + BitVec.ofNat 24 (r.words.length - r.words.length) = r.addr := by
        rw [Nat.sub_self]
        exact BitVec.add_zero _
      rw [hostAsk_of_active (s := withRequest b s) (a := b) hrs rfl, hb]
      simp only [ActiveRequest.accepted, haddr]
    have hgo : runHost (withRequest (.accepted r) s) = withRequest b s := by rw [hb]; exact hall
    rw [exec_hostRequest_of_idle hi hwf hfit, hgo,
      settle_of_hostAsk (s := withRequest b s) (a := b) hp hrs hr hq rfl (by rw [hb]; nofun) hask, hb]
    rfl

end Sys2Proof.Machine
end

section
/-! PROOFS. The obligation about the course of a host request, word by word (R55 to R67). -/

namespace Sys2Proof.Machine

open Sys2Proof.Safety

theorem stampWrite_host (g : GroupNo) (w : PortWord) (s : State) : (stampWrite g w s).host = s.host := by
  rcases stampWrite_cases g w s with e | ⟨x, -, e | e⟩ <;> rw [e] <;> rfl

section
variable {s : State} {b : ActiveRequest} {w : PortWord} (hra : s.resetAsserted = false) (hrs : s.resetting = none)
  (hw : b.wait = .nothing) (hg : b.taken ∉ b.gaps)
include hra hrs hw hg

/-- A word that takes an effect on a state, from which the request goes on (R58 to R67). -/
theorem settle_of_effect {refused : Bool} {v : Option Word} {t : State} (hword : b.request.words[b.taken]? = some w)
    (hlen : b.request.words.length ≤ 16) (hr : b.run = []) (hf : forwarded s b.request.dir (classify s b.nextAddr) = false)
    (hs : OnlyHost s t) (hhost : t.host = s.host)
    (ht : takeWord b w (classify s b.nextAddr) (withRequest b s) = withRequest (b.tookWord refused v) t) :
    settle (runHost (withRequest b s)) = goesOn (b.tookWord refused v) t := by
  have hrt : t.resetting = none := hs.resetting.trans hrs
  rw [runHost_of_effect hrs hw hg hword hlen hr hf ht rfl hrt (by rw [hhost]), goesOn_eq (a := b.tookWord refused v) (hs.resetAsserted.trans hra) hrt hw]

/-- What a write word does that is not forwarded (R58, R59, R67). -/
theorem settle_of_write (hword : b.request.words[b.taken]? = some w) (hlen : b.request.words.length ≤ 16) (hr : b.run = [])
    (hd : b.request.dir = .write) :
    (∀ g off, classify s b.nextAddr = .outputData g off →
      settle (runHost (withRequest b s)) = goesOn (b.tookWord (stageWord g off w s).1 none) (stageWord g off w s).2) ∧
    (∀ g off, classify s b.nextAddr = .outputSeal g off →
      settle (runHost (withRequest b s)) = goesOn (b.tookWord (stageWord g off w s).1 none) (sealImage g (stageWord g off w s).2)) ∧
    (∀ g off, classify s b.nextAddr = .draining g off ∨ classify s b.nextAddr = .seqProtected g →
      settle (runHost (withRequest b s)) = goesOn (b.tookWord true none) s) ∧
    ∀ g off, classify s b.nextAddr = .inputStamp g off →
      settle (runHost (withRequest b s)) = goesOn (b.tookWord false none) (stampWrite g w s) := by
  have hreq : withRequest b s = s.setHost { s.host with active := some b } := rfl
  refine ⟨fun g off hc => ?data, fun g off hc => ?sealed, fun g off hc => ?refused, fun g off hc => ?stamp⟩
  case data =>
    refine settle_of_effect hra hrs hw hg hword hlen hr (by rw [hc]; rfl) (stageWord_onlyHost g off w s) (stageWord_host g off w s) ?_
    rw [hreq]
    simp only [takeWord, hd, hc, stageWord_setHost]
    rw [withRequest, stageWord_host]
    rfl
  case sealed =>
    have hs := (stageWord_onlyHost g off w s).trans (sealImage_onlyHost g (stageWord g off w s).2)
    have hhost : (sealImage g (stageWord g off w s).2).host = s.host := stageAndSeal_host g off w s
    refine settle_of_effect hra hrs hw hg hword hlen hr (by rw [hc]; rfl) hs hhost ?_
    rw [hreq]
    simp only [takeWord, hd, hc, stageAndSeal_setHost]
    rw [withRequest, hhost]
    rfl
  case refused =>
    refine settle_of_effect hra hrs hw hg hword hlen hr ?_ (.refl s) rfl ?_
    · rw [hd]
      rcases hc with hc | hc <;> rw [hc] <;> rfl
    · rcases hc with hc | hc <;> simp only [takeWord, hd, hc] <;> rfl
  case stamp =>
    have hhost := stampWrite_host g w s
    refine settle_of_effect hra hrs hw hg hword hlen hr (by rw [hc]; rfl) (stampWrite_onlyHost g w s) hhost ?_
    rw [hreq]
    simp only [takeWord, hd, hc, stampWrite_setHost]
    rw [withRequest, hhost]
    rfl

/-- What a read word does that is not forwarded, but for one of which the memory is asked (R60, R64, R66). -/
theorem settle_of_read {g : GroupNo} {off : Byte} {x : Group} (hword : b.request.words[b.taken]? = some w)
    (hlen : b.request.words.length ≤ 16) (hr : b.run = []) (hd : b.request.dir = .read) (hx : s.group g = some x) :
    (classify s b.nextAddr = .outputData g off ∨ classify s b.nextAddr = .outputSeal g off ∨ classify s b.nextAddr = .draining g off →
      ((layeredLanes x off w.lanes).2 = 0 →
        settle (runHost (withRequest b s)) = goesOn (b.tookWord false (some (layeredLanes x off w.lanes).1)) s) ∧
      ((layeredLanes x off w.lanes).2 ≠ 0 → settle (runHost (withRequest b s)) =
        settle (withRequest { b with wait := .layered (layeredLanes x off w.lanes).1 (layeredLanes x off w.lanes).2 } s))) ∧
    (∀ bank, classify s b.nextAddr = .inputData g off → x.front = some bank →
      settle (runHost (withRequest b s)) = goesOn (b.tookWord false (some (keepLanes (bank.words.getD off.toNat 0) w.lanes))) s) ∧
    (classify s b.nextAddr = .inputStamp g off →
      settle (runHost (withRequest b s)) = goesOn (b.tookWord false (some (keepLanes (stampWord x) w.lanes))) s) := by
  refine ⟨fun hc => ⟨fun h0 => ?images, fun h0 => ?memory⟩, fun bank hc hb => ?bank, fun hc => ?stamp⟩
  case images =>
    refine settle_of_effect hra hrs hw hg hword hlen hr (forwarded_of_layered hc) (.refl s) rfl ?_
    rw [takeWord_of_layered (s := withRequest b s) hd hx hc, takeLayered, if_pos h0]
    rfl
  case memory =>
    have hask : layeredWait (layeredLanes x off w.lanes) =
        some (.layered (layeredLanes x off w.lanes).1 (layeredLanes x off w.lanes).2) := if_neg h0
    rw [runHost_of_nextWait hrs hw hg ((nextWait_of_layered hword hr hd hx hc).trans hask)]
  case bank =>
    have hword' : (withRequest b s).frontWord g off w.lanes = keepLanes (bank.words.getD off.toNat 0) w.lanes := by
      have hx' : (withRequest b s).group g = some x := hx
      simp only [State.frontWord, hx', hb, Option.elim_some]
    refine settle_of_effect hra hrs hw hg hword hlen hr ?_ (.refl s) rfl ?_
    · rw [hc, hd]
      simp [forwarded, State.frontEmpty, hx, hb]
    · simp only [takeWord, hd, hc, hword']
      rfl
  case stamp =>
    have hword' : (withRequest b s).stamp g w.lanes = keepLanes (stampWord x) w.lanes := by
      have hx' : (withRequest b s).group g = some x := hx
      simp only [State.stamp, hx']
    refine settle_of_effect hra hrs hw hg hword hlen hr (by rw [hc]; rfl) (.refl s) rfl ?_
    simp only [takeWord, hd, hc, hword']
    rfl

end

/-- A run that ends, or a word that is not forwarded behind an open run, asks for the port (R55). -/
theorem nextWait_of_run {s : State} {a : ActiveRequest} (hr : a.run ≠ [])
    (h : ∀ w, a.request.words[a.taken]? = some w → forwarded s a.request.dir (classify s a.nextAddr) = false) :
    s.nextWait a = some .run := by
  have hne : ¬ a.run.isEmpty = true := by simpa using hr
  rcases hw : a.request.words[a.taken]? with - | w
  · simp only [State.nextWait, hw, if_neg hne]
  · have hf : ¬ forwarded s a.request.dir (classify s a.nextAddr) = true := by rw [h w hw]; decide
    have hne : (!a.run.isEmpty) = true := by simpa using hr
    simp only [State.nextWait, hw, if_neg hf, if_pos hne]

/-- The response that an answered request leads to (R56). -/
theorem status_of_faulted (f : Bool) (st : PortStatus) : (if (f || decide (st = .fault)) = true then PortStatus.fault else .okay) =
    if f = true ∨ st = .fault then .fault else .okay := by
  simp

theorem ActiveRequest.tookWord_write (b : ActiveRequest) (refused : Bool) :
    b.tookWord refused none = { b with taken := b.taken + 1, faulted := b.faulted || refused } := by
  simp [ActiveRequest.tookWord]

theorem ActiveRequest.tookWord_read (b : ActiveRequest) (v : Word) :
    b.tookWord false (some v) = { b with taken := b.taken + 1, data := b.data ++ [v] } := by
  simp [ActiveRequest.tookWord]

/-- Settles O26: the acceptance, the two answers, the next act of a request at a gap, and the last answer of a request. -/
theorem lastAnswerEndsTheRequest : Obligations.LastAnswerEndsTheRequest := by
  refine ⟨fun r s hi hwf hfit => ?accepted, fun s a q hra hrs ha => ⟨fun st data hp hlen => ?run, fun st data image lanes hp hw => ?layered⟩,
    fun s a b hra hrs ha hw hlen hb => ?word, fun s a q hra hrs ha hwait hg hg' => ⟨fun st data hp hw hend hlen => ?lastRun,
    fun st data image lanes hp hw hr hend => ?lastLayered⟩⟩
  case accepted =>
    obtain ⟨hra, hrs, -, -⟩ := id hi
    rw [exec_hostRequest_of_idle hi hwf hfit, goesOn_eq hra hrs rfl]
    rfl
  case run => exact exec_runResponse hra hrs ha hp hlen
  case layered =>
    exact (exec_layeredReadResponse st data hra hrs ha hp hw).trans
      (congrArg (fun b => Host.Outcome.next (goesOn b { s with port := none })) (layeredAnswered_eq hw st data))
  case lastRun =>
    have hnone : a.request.words[a.taken]? = none := List.getElem?_eq_none (le_of_eq hend.symm)
    have hstatus : (if (a.runAnswered st data).faulted then PortStatus.fault else .okay) =
        if a.faulted = true ∨ st = .fault then .fault else .okay := status_of_faulted a.faulted st
    rw [exec_runResponse hra hrs ha hp hlen, goesOn_eq (s := { s with port := none }) hra hrs rfl,
      runHost_of_end (s := { s with port := none }) (b := a.runAnswered st data) hrs rfl hg hnone rfl hwait, hstatus]
    rfl
  case lastLayered =>
    have hnone : a.request.words[a.taken + 1]? = none := List.getElem?_eq_none (le_of_eq hend.symm)
    obtain ⟨b, hb⟩ : ∃ b, b = a.layeredAnswered st data := ⟨_, rfl⟩
    have hanswered := hb.trans (layeredAnswered_eq hw st data)
    have hstatus : (if b.faulted then PortStatus.fault else .okay) = if a.faulted = true ∨ st = .fault then .fault else .okay := by
      rw [← status_of_faulted, hanswered]
    rw [exec_layeredReadResponse st data hra hrs ha hp hw, ← hb,
      goesOn_eq (s := { s with port := none }) (a := b) hra hrs (by rw [hanswered]),
      runHost_of_end (s := { s with port := none }) (b := b) hrs (by rw [hanswered]) (by rw [hanswered]; exact hg')
        (by rw [hanswered]; exact hnone) (by rw [hanswered]; exact hr) hwait, hstatus]
    exact congrArg (fun d => Host.Outcome.next (settle (hostAnswered _ d { s with port := none }))) (congrArg ActiveRequest.data hanswered)
  case word =>
    have hpass : a.passGap = b := hb.symm
    have hg : b.taken ∉ b.gaps := by rw [← hpass]; exact passGap_notAtGap a
    rw [tick_eq hra hrs ha hw, hpass]
    subst hb
    have hw : ({ a with gaps := a.gaps.filter (fun k => k != a.taken) } : ActiveRequest).wait = .nothing := hw
    refine ⟨fun hend => ?ended, fun w c hword hc => ?next⟩
    case ended =>
      have hnone : a.request.words[a.taken]? = none := List.getElem?_eq_none (le_of_eq hend.symm)
      refine ⟨fun hr => ?_, fun hr hwait => ?_, fun r rest hr hwait _ hfit => ?_⟩
      · rw [runHost_of_nextWait hrs hw hg (nextWait_of_run hr fun w h => by rw [hnone] at h; cases h)]
      · rw [runHost_of_end hrs hw hg hnone hr hwait]
      · rw [runHost_of_end_behind hrs hw hg hnone hr hwait hfit]
        exact (goesOn_eq (by exact hra) (by exact hrs) (by rfl)).symm
    case next =>
      subst hc
      refine ⟨fun hf => ?_, fun hf hr => ?_, fun hr hd => ?_, fun hr hd g off x hx => ?_⟩
      · rw [runHost_of_forwarded hrs hw hg hword hlen hf]
        exact (goesOn_eq hra hrs (by exact hw)).symm
      · rw [runHost_of_nextWait hrs hw hg (nextWait_of_run hr fun _ _ => hf)]
      · obtain ⟨hdata, hseal, hrefused, hstamp⟩ := settle_of_write hra hrs hw hg hword hlen hr hd
        simp only [ActiveRequest.tookWord_write, Bool.or_true, Bool.or_false] at hdata hseal hrefused hstamp
        exact ⟨hdata, hseal, hrefused, hstamp⟩
      · obtain ⟨hlayered, hbank, hstamp⟩ := settle_of_read hra hrs hw hg hword hlen hr hd hx
        simp only [ActiveRequest.tookWord_read] at hlayered hbank hstamp
        exact ⟨hlayered, hbank, hstamp⟩

end Sys2Proof.Machine
end

section
/-! SUPPORT. A plain job that runs alone: its state between two steps, and what each answer makes of it (R104 to R109). -/

namespace Sys2Proof.Machine

open Sys2Proof.Safety

/-! ### The job -/

/-- A job that stands at an entry, after answers to requests at these positions (R109). -/
def Job.wrote (k : Job) (n : Nat) (ps : List (PortStatus × FaultPosition)) : Job :=
  { k with
    progress := n
    faulted := ps.any (fun p => decide (p.1 = .fault))
    faultPosition := (ps.find? (fun p => decide (p.1 = .fault))).map Prod.snd }

theorem wrote_self {j : Job} (h1 : j.progress = 0) (h2 : j.faulted = false) (h3 : j.faultPosition = none) : j.wrote 0 [] = j := by
  cases j
  simp_all [Job.wrote]

theorem wrote_noteAnswer (k : Job) (n : Nat) (ps : List (PortStatus × FaultPosition)) (st : PortStatus) (pos : FaultPosition) :
    (k.wrote n ps).noteAnswer st pos = k.wrote n (ps ++ [(st, pos)]) := by
  cases st with
  | okay => simp [Job.noteAnswer, Job.wrote, List.find?_append]
  | fault =>
    rcases hf : ps.find? (fun p => decide (p.1 = .fault)) with - | p <;>
      simp [Job.noteAnswer, Job.wrote, List.find?_append, hf]

/-- The event of the close: the first position that faulted, if any did (R108). -/
theorem closeEvents_wrote (k : Job) (n : Nat) (ps : List (PortStatus × FaultPosition)) (q : EventQueue) :
    (k.wrote n ps).closeEvents q =
      match (ps.map (fun p => (p.1, p.2.detail))).find? (fun p => decide (p.1 = .fault)) with
      | some p => q.raise { kind := .commitFault, group := some k.group, source := none, epoch := some k.epoch, detail := p.2 }
      | none => q := by
  have hfind : (ps.map (fun p => (p.1, p.2.detail))).find? (fun p => decide (p.1 = .fault)) =
      (ps.find? (fun p => decide (p.1 = .fault))).map (fun p => (p.1, p.2.detail)) := List.find?_map
  have hany : ps.any (fun p => decide (p.1 = .fault)) = (ps.find? (fun p => decide (p.1 = .fault))).isSome :=
    List.isSome_find?.symm
  rw [hfind, Job.closeEvents, Job.wrote, hany]
  rcases hf : ps.find? (fun p => decide (p.1 = .fault)) with - | p <;> simp only [hf] <;> rfl

/-! ### The state between two steps -/

/-- The state in which the job runs and its next request has not been granted yet. -/
def runningAt (k : Job) (s : State) : State := { s with port := none, streak := 0, engine := { s.engine with running := some k } }

/-- The state in which the request of the running job is outstanding. -/
def grantedAt (u : PortUse) (k : Job) (s : State) : State :=
  { s with port := some u, streak := 0, engine := { s.engine with running := some (k.noteIssued u.purpose) } }

section
variable {s : State} {k : Job} {x : Group} {u : PortUse} {q : PortRequest} {st : PortStatus}
  (hra : s.resetAsserted = false) (hrs : s.resetting = none) (ha : s.host.active = none) (hx : s.group k.group = some x)

section
include hrs ha

/-- With the port free and no host request inside, the request of the running job is granted at the end of the step (R118). -/
theorem settle_grants (hp : s.port = none) (hr : s.engine.running = some k) (hx : s.group k.group = some x)
    (hn : nextRequest k x = some u) : settle s = grantedAt u k s := by
  have hask : s.engineAsk = some u := (engineAsk_of_running hrs hr hx).trans hn
  rw [settle_of_engineAsk hp hrs hask, joinHost_of_apart (a := .accepted (oneWord .read 0 ⟨0, 0⟩)) (.inl ha),
    arbitrate_of_engine hp hask (hostAsk_of_idle ha), grantEngine, hr]
  rfl

include hx in
theorem settle_runningAt (hn : nextRequest k x = some u) : settle (runningAt k s) = grantedAt u k s :=
  settle_grants (s := runningAt k s) hrs ha rfl rfl hx hn

end

section
include hra hrs

theorem exec_opening_granted : exec (.openingWriteResponse st) (grantedAt ⟨.opening, q⟩ k s) =
    .next (settle (runningAt ({ k with writingIssued := true }.noteAnswer st .sequenceWord) s)) :=
  jobAnswer_of_record (s := grantedAt ⟨.opening, q⟩ k s) (fun j _ => j.noteAnswer st .sequenceWord) hra hrs rfl rfl

include hx in
theorem exec_dataWrite_granted {e : Entry} (he : x.jobImage[k.progress]? = some e) :
    exec (.dataWriteResponse st) (grantedAt ⟨.dataWrite, q⟩ k s) =
      .next (settle (runningAt { k.noteAnswer st (.offset e.offset) with progress := k.progress + 1 } s)) := by
  have hpos : ((grantedAt ⟨.dataWrite, q⟩ k s).setPort none).currentPosition k = .offset e.offset :=
    currentPosition_of_entry (s := grantedAt ⟨.dataWrite, q⟩ k s) hx he
  refine (jobAnswer_of_record (s := grantedAt ⟨.dataWrite, q⟩ k s)
    (fun j t => { j.noteAnswer st (t.currentPosition j) with progress := j.progress + 1 }) hra hrs rfl rfl).trans ?_
  have hissued : k.noteIssued .dataWrite = k := rfl
  simp only [hissued, hpos]
  rfl

end

/-! ### The close -/

/-- The state after the job has closed (R26, R108). -/
def closedAt (k : Job) (x : Group) (img : Image) (s : State) : State := { s with
  port := none, streak := 0, freeStage := s.freeStage + img.length, engine := { s.engine with running := none }
  groups := s.groups.set k.group (some { x with seqCount := k.count, committing := none })
  events := k.closeEvents s.events }

theorem closedAt_of_free {k : Job} {x : Group} {img : Image} {s : State} (hp : s.port = none) : closedAt k x img s = { s with
    streak := 0, freeStage := s.freeStage + img.length, engine := { s.engine with running := none }
    groups := s.groups.set k.group (some { x with seqCount := k.count, committing := none })
    events := k.closeEvents s.events } := by
  unfold closedAt
  congr 1
  exact hp.symm

section
variable {img : Image} (hq : s.engine.queue = []) (hk : x.record.kind = .output) (hl : x.state = .live)
  (hc : x.committing = some (.commit img))
include hrs ha hx hq hk hl hc

theorem settle_closeJob {t : State} (ht : t = { s with port := none, streak := 0, engine := { s.engine with running := t.engine.running } }) :
    settle (closeJob k t) = closedAt k x img s := by
  have hstage : x.committing.elim 0 Committing.stageEntries = img.length := by rw [hc]; rfl
  have hxt : t.group k.group = some x := by rw [ht]; exact hx
  have hclose : closeJob k t = closedAt k x img s := by
    rw [closeJob_of_plain hxt hk (.inl hl), hstage, ht]
    rfl
  rw [hclose]
  exact settle_idle rfl hq ha hrs

/-- A job with no sequence word closes with its last answer (R108). -/
theorem settle_runningAt_of_done (hp : k.phase = .plain) (hn : nextRequest k x = none) :
    settle (runningAt k s) = closedAt k x img s := by
  have hnone : ((runningAt k s).group k.group).bind (nextRequest k) = none := by
    have hx' : (runningAt k s).group k.group = some x := hx
    rw [hx', Option.bind_some, hn]
  rw [settle_endPhase (s := runningAt k s) rfl hrs rfl hnone, endPhase_of_close (.inl hp)]
  exact settle_closeJob hrs ha hx hq hk hl hc rfl

include hra in
theorem exec_closing_granted : exec (.closingWriteResponse st) (grantedAt ⟨.closing, q⟩ k s) =
    .next (closedAt (k.noteAnswer st .sequenceWord) x img s) := by
  have hg : (Job.noteAnswer { k with closingIssued := true } st .sequenceWord).group = k.group := (noteAnswer_fields _ st _).2.1
  rw [exec_closingWriteResponse (s := grantedAt ⟨.closing, q⟩ k s) st hra hrs rfl rfl]
  refine congrArg Host.Outcome.next ((settle_closeJob (k := Job.noteAnswer { k with closingIssued := true } st .sequenceWord)
    (t := (grantedAt ⟨.closing, q⟩ k s).setPort none) hrs ha (by rw [hg]; exact hx) hq hk hl hc rfl).trans ?_)
  cases st <;> rfl

end

end

/-! ### The trace -/

theorem plainTrace_cons {st : PortStatus} {rest : List PortStatus} {s t : State} {u : PortUse} {i : Instr} (hp : s.port = some u)
    (hi : plainAnswer u.purpose st = some i) (hx : exec i s = .next t) :
    plainTrace (st :: rest) s = (u.request :: (plainTrace rest t).1, (plainTrace rest t).2) := by
  simp only [plainTrace, hp, hi, hx]

/-- The part of the trace in which the entries from a point on are written, in list order (R106). -/
theorem plainTrace_writes {s : State} {k : Job} {x : Group} {tail : List PortStatus} (hra : s.resetAsserted = false)
    (hrs : s.resetting = none) (ha : s.host.active = none) (hx : s.group k.group = some x) (hw : k.writes x) :
    ∀ (es : Image) (as : List PortStatus) (n : Nat) (ps : List (PortStatus × FaultPosition)), as.length = es.length →
      x.jobImage.drop n = es →
      plainTrace (as ++ tail) (settle (runningAt (k.wrote n ps) s)) =
        (es.map (dataRequest x) ++ (plainTrace tail (settle (runningAt (k.wrote (n + es.length)
          (ps ++ as.zip (es.map (fun e => .offset e.offset)))) s))).1,
        (plainTrace tail (settle (runningAt (k.wrote (n + es.length)
          (ps ++ as.zip (es.map (fun e => .offset e.offset)))) s))).2)
  | [], [], n, ps, _, _ => by simp
  | e :: es, st :: as, n, ps, hlen, hdrop => by
    have he : x.jobImage[n]? = some e := by
      rw [← List.head?_drop, hdrop]
      rfl
    have hrest : x.jobImage.drop (n + 1) = es := by
      rw [← List.drop_drop, hdrop]
      rfl
    have hgrant : settle (runningAt (k.wrote n ps) s) = grantedAt ⟨.dataWrite, dataRequest x e⟩ (k.wrote n ps) s :=
      settle_runningAt hrs ha hx (nextRequest_of_entry (j := k.wrote n ps) hw he)
    have hnext := exec_dataWrite_granted (q := dataRequest x e) (st := st) (k := k.wrote n ps) hra hrs hx he
    have hjob : ({ (k.wrote n ps).noteAnswer st (.offset e.offset) with progress := (k.wrote n ps).progress + 1 } : Job) =
        k.wrote (n + 1) (ps ++ [(st, .offset e.offset)]) := by
      rw [wrote_noteAnswer]
      rfl
    rw [hjob] at hnext
    have ih := plainTrace_writes (tail := tail) hra hrs ha hx hw es as (n + 1) (ps ++ [(st, .offset e.offset)]) (Nat.succ.inj hlen) hrest
    rw [hgrant, List.cons_append, plainTrace_cons (u := ⟨.dataWrite, dataRequest x e⟩) rfl rfl hnext, ih, List.map_cons, List.map_cons,
      List.zip_cons_cons, List.length_cons, List.append_assoc, List.singleton_append, Nat.add_right_comm n 1, Nat.add_assoc n]
    rfl

end Sys2Proof.Machine
end

section
/-! PROOFS. The obligation about a plain COMMIT job that runs alone (R104 to R109). -/

namespace Sys2Proof.Machine

open Sys2Proof.Safety

/-- The answers that mark a job faulted are those that are FAULT (R109). -/
theorem any_fault_iff {as : List PortStatus} {ps : List FaultPosition} (h : as.length = ps.length) :
    (as.zip ps).any (fun p => decide (p.1 = .fault)) = true ↔ .fault ∈ as := by
  have hfst : (as.zip ps).map Prod.fst = as := List.map_fst_zip (le_of_eq h)
  conv_rhs => rw [← hfst, List.mem_map]
  simp

/-- The answers to the entries' writes, with the details that a fault there has (R108). -/
theorem map_detail_writes (as : List PortStatus) (img : Image) :
    (as.zip (img.map (fun e => FaultPosition.offset e.offset))).map (fun p => (p.1, p.2.detail)) =
      as.zip (img.map (fun e => e.offset.setWidth 16)) := by
  rw [List.zip_map_right, List.zip_map_right, List.map_map]
  rfl

/-- Settles O38: the grant of the first request, the entries in list order, and the close. -/
theorem plainCommitWritesItsImage : Obligations.PlainCommitWritesItsImage := by
  intro s j x img answers hra hrs ha hp hq hr hx hphase hprog hwr hcl hfa hpos hk hl hc hne hlen
  have himg : x.jobImage = img := by simp only [Group.jobImage, hc]
  refine ⟨fun hseq => ?plain, fun q opening closing hseq => ?seq⟩
  case plain =>
    obtain ⟨e, es, hes⟩ := List.exists_cons_of_ne_nil hne
    have hwrites : j.writes x := .inr ⟨hphase, .inl hseq⟩
    have hfirst : nextRequest j x = some ⟨.dataWrite, dataRequest x e⟩ :=
      nextRequest_of_entry hwrites (by rw [himg, hprog, hes]; rfl)
    have hstart : settle s = settle (runningAt (j.wrote 0 []) s) := by
      rw [wrote_self hprog hfa hpos, settle_runningAt hrs ha hx hfirst, settle_grants hrs ha hp hr hx hfirst]
    obtain ⟨ps, hps⟩ : ∃ ps, ps = [] ++ answers.zip (img.map (fun e => FaultPosition.offset e.offset)) := ⟨_, rfl⟩
    have htrace := plainTrace_writes (tail := []) hra hrs ha hx hwrites img answers 0 [] hlen (by rw [himg]; rfl)
    have hlast : nextRequest (j.wrote (0 + img.length) ps) x = none :=
      (nextRequest_of_written (j := j.wrote (0 + img.length) ps) hwrites (by rw [himg, Nat.zero_add]; exact le_rfl)).trans
        (closingOf_of_none hseq)
    have hdone := settle_runningAt_of_done (k := j.wrote (0 + img.length) ps) hrs ha hx hq hk hl hc hphase hlast
    rw [← hps, hdone, List.append_nil] at htrace
    have hfind : (ps.map (fun p : PortStatus × FaultPosition => (p.1, p.2.detail))).find? (fun p => decide (p.1 = .fault)) =
        ((answers.zip img).find? (fun p => decide (p.1 = .fault))).map (Prod.map id (fun e => e.offset.setWidth 16)) := by
      rw [hps, List.nil_append, map_detail_writes, List.zip_map_right, List.find?_map]
      rfl
    rw [hstart, htrace, closedAt_of_free hp, closeEvents_wrote, hfind]
    refine Prod.ext (List.append_nil _) ?_
    rcases hf : (answers.zip img).find? (fun p => decide (p.1 = .fault)) with - | p <;> simp only [hf] <;> rfl
  case seq =>
    obtain ⟨k, hkj⟩ : ∃ k : Job, k = { j with writingIssued := true } := ⟨_, rfl⟩
    obtain ⟨ps, hps⟩ : ∃ ps, ps = [(opening, .sequenceWord)] ++ answers.zip (img.map (fun e => FaultPosition.offset e.offset)) :=
      ⟨_, rfl⟩
    have hxk : s.group k.group = some x := by rw [hkj]; exact hx
    have hwrites : k.writes x := by rw [hkj]; exact .inr ⟨hphase, .inr rfl⟩
    have hanswered := exec_opening_granted (q := ⟨.write, BitVec.ofNat 24 (q.toNat / 4), [⟨0xF, 0b01#2 ++ j.count⟩]⟩) (k := j)
      (st := opening) hra hrs
    have hjob : Job.noteAnswer { j with writingIssued := true } opening .sequenceWord = k.wrote 0 [(opening, .sequenceWord)] := by
      rw [hkj, ← List.nil_append [(opening, FaultPosition.sequenceWord)], ← wrote_noteAnswer,
        wrote_self (j := { j with writingIssued := true }) hprog hfa hpos]
    have htrace := plainTrace_writes (tail := [closing]) hra hrs ha hxk hwrites img answers 0 [(opening, .sequenceWord)] hlen
      (by rw [himg]; rfl)
    have hgrant := settle_runningAt (k := k.wrote (0 + img.length) ps) hrs ha hxk ((nextRequest_of_written
      (j := k.wrote (0 + img.length) ps) hwrites (by rw [himg, Nat.zero_add]; exact le_rfl)).trans (closingOf_of_some hseq))
    have hclosed := exec_closing_granted (k := k.wrote (0 + img.length) ps) (st := closing) (q := ⟨.write, BitVec.ofNat 24 (q.toNat / 4),
      [⟨0xF, (if (k.wrote (0 + img.length) ps).faulted then 0b10#2 else 0b00#2) ++ (k.wrote (0 + img.length) ps).count⟩]⟩)
      hra hrs ha hxk hq hk hl hc
    have htorn : (k.wrote (0 + img.length) ps).faulted = true ↔ .fault ∈ opening :: answers := by
      refine Iff.trans (iff_of_eq ?_) (any_fault_iff (ps := .sequenceWord :: img.map (fun e => .offset e.offset)) (by simp [hlen]))
      rw [hps]
      rfl
    have hevents : (ps ++ [(closing, FaultPosition.sequenceWord)]).map (fun p : PortStatus × FaultPosition => (p.1, p.2.detail)) =
        (opening, 0xFFFF#16) :: answers.zip (img.map (fun e => e.offset.setWidth 16)) ++ [(closing, 0xFFFF#16)] := by
      rw [hps, List.map_append, List.map_append, map_detail_writes]
      rfl
    rw [hjob] at hanswered
    rw [← hps] at htrace
    rw [settle_grants hrs ha hp hr hx (nextRequest_of_opening (.inl hphase) hseq hwr), List.cons_append,
      plainTrace_cons rfl rfl hanswered, htrace, hgrant, plainTrace_cons rfl rfl hclosed, wrote_noteAnswer, closedAt_of_free hp, closeEvents_wrote,
      hevents, ← if_congr htorn rfl rfl, hkj]
    rfl

end Sys2Proof.Machine
end
